-- ==== Sys2Proof/Word.lean ====
section
/-! DEFINITION. Words, bytes and vectors, and the plain view of a natural number as a word. -/

namespace Sys2Proof

/-- A byte (spec R6). -/
abbrev Byte := BitVec 8
/-- A 64-bit register value (spec R104). -/
abbrev W64 := BitVec 64
/-- A 32-bit word, the unit of code (spec R80). -/
abbrev W32 := BitVec 32
/-- A 256-byte vector (spec R150), byte i at bits 8i+7 down to 8i (spec R6). -/
abbrev Vec := BitVec 2048
/-- A 64-byte line (spec R192), byte 0 lowest. -/
abbrev Line := BitVec 512
/-- An operand specifier (spec R10). -/
abbrev Spec := BitVec 6

end Sys2Proof
end

