-- ==== Sys2Proof/Machine/Bits.lean ====
section
/-! DEFINITION. Bit fields, byte order, lanes and sorted maps: the helpers every other file uses (spec R5, R6, R46, R57). -/

namespace Sys2Proof

/-- Bits `[lo+len-1:lo]` of a word, as a number (spec R5). -/
def bfld {n : Nat} (x : BitVec n) (lo len : Nat) : Nat := (x.toNat >>> lo) % 2 ^ len

/-- Bits `[lo+len-1:lo]` of a number (spec R5). -/
def nfld (x lo len : Nat) : Nat := (x >>> lo) % 2 ^ len

/-- One bit of a word. -/
def bbit {n : Nat} (x : BitVec n) (i : Nat) : Bool := x.getLsbD i

/-- A word with bits `[lo+len-1:lo]` replaced by the low bits of `v` (spec R5). -/
def bset {n : Nat} (x : BitVec n) (lo len v : Nat) : BitVec n :=
  (x &&& ~~~ (BitVec.ofNat n ((2 ^ len - 1) <<< lo))) ||| BitVec.ofNat n ((v % 2 ^ len) <<< lo)

/-- A Bool as the number 0 or 1. -/
def b2n (b : Bool) : Nat := if b then 1 else 0

/-- A number of `w` bits read as two's complement (spec R57). -/
def sval (w x : Nat) : Int := if x < 2 ^ (w - 1) then (x : Int) else (x : Int) - (2 ^ w : Nat)

/-- An integer modulo `2^w`, as a number (spec R57). -/
def wrapN (w : Nat) (x : Int) : Nat := (x % ((2 ^ w : Nat) : Int)).toNat

/-- A number of `w` bits sign-extended to 64 bits. -/
def sext64 (w x : Nat) : W64 := BitVec.ofInt 64 (sval w x)

/-- The `n` bytes of a number, least significant first (spec R6). -/
def toBytes : Nat → Nat → List Byte
  | 0, _ => []
  | n + 1, x => BitVec.ofNat 8 x :: toBytes n (x >>> 8)

/-- The number a run of bytes holds, least significant first (spec R6). -/
def ofBytes : List Byte → Nat
  | [] => 0
  | b :: t => b.toNat + 256 * ofBytes t

/-- Element `i` of width `w` of a packed number (spec R46, R57). -/
def lane (w x i : Nat) : Nat := (x >>> (w * i)) % 2 ^ w

/-- The first `n` elements of width `w` (spec R46, R57). -/
def lanes (w n x : Nat) : List Nat := (List.range n).map (lane w x)

/-- Elements of width `w` packed, element 0 lowest (spec R46, R57). -/
def packLanes (w : Nat) : List Nat → Nat
  | [] => 0
  | x :: t => x % 2 ^ w + 2 ^ w * packLanes w t

/-- Elements of width `w` packed into a vector (spec R151). -/
def vpack (w : Nat) (l : List Nat) : Vec := BitVec.ofNat 2048 (packLanes w l)

/-- Sign or zero extension of a `w`-bit number to 64 bits. -/
def ext64 (signed : Bool) (w x : Nat) : W64 :=
  if signed then sext64 w (x % 2 ^ w) else BitVec.ofNat 64 (x % 2 ^ w)

/-- Count of one bits among the low `n` bits. -/
def popCount : Nat → Nat → Nat
  | 0, _ => 0
  | n + 1, x => x % 2 + popCount n (x / 2)

/-- Count of leading zeros of an `n`-bit number: `n` when it is 0. -/
def leadZeros : Nat → Nat → Nat
  | 0, _ => 0
  | n + 1, x => if x.testBit n then 0 else 1 + leadZeros n x

/-- Count of trailing zeros of an `n`-bit number: `n` when it is 0. -/
def trailZeros : Nat → Nat → Nat
  | 0, _ => 0
  | n + 1, x => if x % 2 = 1 then 0 else 1 + trailZeros n (x / 2)

/-- The bits of an `n`-bit number in reverse order. -/
def revBits : Nat → Nat → Nat
  | 0, _ => 0
  | n + 1, x => (x % 2) * 2 ^ n + revBits n (x / 2)

/-- The carry-less product of `a` with the low `n` bits of `b` (spec R107). -/
def clmulNat : Nat → Nat → Nat → Nat
  | 0, _, _ => 0
  | n + 1, a, b => (if b % 2 = 1 then a else 0) ^^^ (2 * clmulNat n a (b / 2))

/-- The least whole number at or above `a / b`. -/
def ceilDiv (a b : Nat) : Nat := (a + b - 1) / b

/-- A map from numbers to values, held as the list of its entries that differ from the default, keys rising. -/
abbrev SMap (α : Type) := List (Nat × α)

/-- The value at a key: the default where no entry is listed. -/
def SMap.get {α : Type} (d : α) : SMap α → Nat → α
  | [], _ => d
  | (k, v) :: t, i => if k = i then v else SMap.get d t i

/-- The map without the entry of a key. -/
def SMap.erase {α : Type} : SMap α → Nat → SMap α
  | [], _ => []
  | (k, v) :: t, i => if k = i then SMap.erase t i else (k, v) :: SMap.erase t i

/-- The map with an entry put in its place by key. -/
def SMap.insert {α : Type} : SMap α → Nat → α → SMap α
  | [], i, v => [(i, v)]
  | (k, w) :: t, i, v => if i < k then (i, v) :: (k, w) :: t else (k, w) :: SMap.insert t i v

/-- The map with a key set; a value equal to the default lists nothing. -/
def SMap.set {α : Type} [DecidableEq α] (d : α) (m : SMap α) (i : Nat) (v : α) : SMap α :=
  if v = d then SMap.erase m i else SMap.insert (SMap.erase m i) i v

/-- The canonical form: keys strictly rising above `lo`, no entry equal to the default. -/
def SMap.wfFrom {α : Type} [DecidableEq α] (d : α) : Option Nat → SMap α → Bool
  | _, [] => true
  | lo, (k, v) :: t =>
    (match lo with
      | none => true
      | some b => decide (b < k)) && decide (v ≠ d) && SMap.wfFrom d (some k) t

/-- The canonical form of a map. -/
def SMap.wf {α : Type} [DecidableEq α] (d : α) (m : SMap α) : Bool := SMap.wfFrom d none m

/-- An entry added to or replaced in a map without a default. -/
def SMap.put {α : Type} (m : SMap α) (i : Nat) (v : α) : SMap α := SMap.insert (SMap.erase m i) i v

/-- The entry of a key, if one is listed. -/
def SMap.find {α : Type} : SMap α → Nat → Option α
  | [], _ => none
  | (k, v) :: t, i => if k = i then some v else SMap.find t i

/-- A list with position `i` replaced. -/
def setAt {α : Type} : List α → Nat → α → List α
  | [], _, _ => []
  | _ :: t, 0, v => v :: t
  | x :: t, n + 1, v => x :: setAt t n v

/-- The numbers `a, a+1, …, a+n-1`. -/
def rangeFrom (a n : Nat) : List Nat := (List.range n).map (a + ·)

end Sys2Proof
end

