-- ==== Sys2Proof/Syntax.lean ====
section
/-! DEFINITION. Syntax: one constructor for each row of spec/opcode_table.json. The fields of an instruction form are
those of its words (spec R86 to R90); an event of the device carries the data the event reads from outside. -/

namespace Sys2Proof

/-- Fields of a short S word (spec R86). -/
structure SForm where
  d : Spec
  a : Spec
  b : Spec
  pb : BitVec 2
  ru : Bool
  u : Bool
  deriving DecidableEq, Repr

/-- Fields of a long S or X instruction: the head's general body and the tail's c and mod (spec R82, R86, R90). -/
structure LForm where
  d : Spec
  a : Spec
  b : Spec
  c : Spec
  pb : BitVec 2
  ru : Bool
  mod : BitVec 22
  deriving DecidableEq, Repr

/-- Fields of an SI-I word (spec R87). -/
structure IForm where
  d : Spec
  a : Spec
  pb : BitVec 2
  ru : Bool
  imm : BitVec 10
  deriving DecidableEq, Repr

/-- Fields of `MOVHI` (spec R87, SI-H). -/
structure HForm where
  d : Spec
  a : Spec
  pb : BitVec 2
  ru : Bool
  sh : BitVec 2
  imm : BitVec 16
  deriving DecidableEq, Repr

/-- Fields of a BC body (spec R88). -/
structure CForm where
  cc : BitVec 2
  a : Spec
  pb : BitVec 2
  off : BitVec 14
  deriving DecidableEq, Repr

/-- Fields of a YR body (spec R89). -/
structure RForm where
  a : Spec
  b : Spec
  c : Spec
  pb : BitVec 2
  deriving DecidableEq, Repr

/-- Fields of a YC body (spec R89). -/
structure KForm where
  r : Spec
  pb : BitVec 2
  csr : BitVec 12
  deriving DecidableEq, Repr

/-- Fields of a VF instruction (spec R86, R90). -/
structure FForm where
  d : Spec
  a : Spec
  b : Spec
  c : Spec
  pb : BitVec 2
  ru : Bool
  typ : BitVec 5
  lat : BitVec 2
  rne : Bool
  fzi : Bool
  fzo : Bool
  sat : Bool
  typ2 : BitVec 5
  cc : BitVec 4
  deriving DecidableEq, Repr

/-- Fields of a VI instruction (spec R86, R90). -/
structure VForm where
  d : Spec
  a : Spec
  b : Spec
  c : Spec
  pb : BitVec 2
  ru : Bool
  typ : BitVec 5
  lat : BitVec 2
  sat : Bool
  imm : BitVec 8
  cc : BitVec 4
  deriving DecidableEq, Repr

/-- Fields of a short M load or store (spec R86, R97). -/
structure MForm where
  d : Spec
  a : Spec
  b : Spec
  pb : BitVec 2
  ru : Bool
  deriving DecidableEq, Repr

/-- Fields of a long M instruction, ops 0x20 to 0x2C (spec R90). -/
structure AForm where
  d : Spec
  a : Spec
  b : Spec
  c : Spec
  pb : BitVec 2
  ru : Bool
  typ : BitVec 5
  scope : BitVec 3
  fn : BitVec 4
  deriving DecidableEq, Repr

/-- Fields of a long M instruction, ops 0x2D to 0x30 (spec R90, R227). -/
structure TForm where
  d : Spec
  a : Spec
  b : Spec
  c : Spec
  pb : BitVec 2
  ru : Bool
  ctx : BitVec 16
  deriving DecidableEq, Repr

/-- A submission packet: 128 header bits and the six body words (spec R341, R342). -/
structure Pkt where
  hdr : BitVec 128
  q0 : W64
  q1 : W64
  q2 : W64
  q3 : W64
  q4 : W64
  q5 : W64
  deriving DecidableEq, Repr

/-- A line on the fabric with the outcome of its check (spec R193, R310). -/
structure CLine where
  data : Line
  ok : Bool
  deriving DecidableEq, Repr

/-- A Valbeoft transaction: its header and its data units (spec R310). -/
structure Txn where
  hdr : Line
  units : List CLine
  deriving DecidableEq, Repr

/-- What a stack's codes and sensors tell at a sample (spec R194, R331): the dies' temperatures, the bus retries and corrected lines since
the last, and the lines that fail. -/
structure HbmSample where
  temps : List Nat
  retry : Nat
  corr : Nat
  bad : List Nat
  deriving DecidableEq, Repr

/-- A frame with the count of accesses to it in the window (spec R334). -/
structure CountedFrame where
  frame : Nat
  count : Nat
  deriving DecidableEq, Repr

/-- The end of a stack's swap, with the lines found uncorrectable in the copy (spec R333). -/
structure SwapEnd where
  stack : Nat
  bad : List Nat
  deriving DecidableEq, Repr

/-- The rows of spec/opcode_table.json. -/
inductive Instr where
  -- S class, short forms (spec R93, R106)
  | add (f : SForm) | sub (f : SForm) | mul (f : SForm) | mulh (f : SForm) | div (f : SForm) | rem (f : SForm)
  | min (f : SForm) | max (f : SForm) | and (f : SForm) | or (f : SForm) | xor (f : SForm) | andn (f : SForm)
  | orn (f : SForm) | shl (f : SForm) | shr (f : SForm) | sar (f : SForm) | rol (f : SForm) | ror (f : SForm)
  | clz (f : SForm) | ctz (f : SForm) | popc (f : SForm) | brev (f : SForm) | bswap (f : SForm) | clmul (f : SForm)
  | clmulh (f : SForm) | mov (f : SForm) | sext (f : SForm) | zext (f : SForm) | cmpEq (f : SForm) | cmpNe (f : SForm)
  | cmpLt (f : SForm) | cmpGe (f : SForm)
  -- S class, long forms (spec R108)
  | bfx (f : LForm) | bfi (f : LForm) | sel (f : LForm) | lea (f : LForm)
  -- SI class (spec R94, R109)
  | addi (f : IForm) | andi (f : IForm) | ori (f : IForm) | xori (f : IForm) | shli (f : IForm) | shri (f : IForm)
  | movi (d : Spec) (imm : BitVec 19) | movhi (f : HForm)
  -- B class (spec R88, R99)
  | br (off : BitVec 24) | brc (f : CForm) | brv (f : CForm) | call (off : BitVec 24) | calli (a : Spec) (pb : BitVec 2)
  | ret | enter (g : BitVec 11) | loop (f : CForm) | loopn (a : Spec) (pb : BitVec 2) (n : BitVec 8)
  | suspend | yield | spawn (a b : Spec) (pb : BitVec 2) | stage | trig | exit | nop
  -- Y class (spec R89, R100)
  | trap (code : BitVec 16) | trapfence | phint (f : RForm) | csrr (f : KForm) | csrw (f : KForm) | csrs (f : KForm)
  | csrc (f : KForm) | view (v : BitVec 2) (base : BitVec 18) | rotcfg (f : RForm) | rotate (k : BitVec 11)
  | rft | idle | synci | spalloc (f : RForm) | spfree (f : RForm)
  -- VF class (spec R95)
  | fadd (f : FForm) | fsub (f : FForm) | fmul (f : FForm) | fma (f : FForm) | fms (f : FForm) | fnma (f : FForm)
  | fnms (f : FForm) | fmin (f : FForm) | fmax (f : FForm) | fabs (f : FForm) | fneg (f : FForm) | fcpys (f : FForm)
  | fdiv (f : FForm) | fsqrt (f : FForm) | frcp (f : FForm) | frsq (f : FForm) | fexp2 (f : FForm) | flog2 (f : FForm)
  | ftanh (f : FForm) | fcmp (f : FForm) | fclass (f : FForm) | fscale (f : FForm) | fround (f : FForm)
  | fcvt (f : FForm) | fcvti (f : FForm) | icvtf (f : FForm) | fsumr (f : FForm) | fdot (f : FForm)
  | fbscale (f : FForm) | fpacksd (f : FForm) | funpacksd (f : FForm) | normacc (f : FForm)
  -- VI class (spec R96)
  | vadd (f : VForm) | vsub (f : VForm) | vmul (f : VForm) | vmulh (f : VForm) | vmadd (f : VForm) | vdot4 (f : VForm)
  | vmin (f : VForm) | vmax (f : VForm) | vabs (f : VForm) | vand (f : VForm) | vor (f : VForm) | vxor (f : VForm)
  | vandn (f : VForm) | vshl (f : VForm) | vshr (f : VForm) | vsar (f : VForm) | vcmp (f : VForm) | vsel (f : VForm)
  | vbcast (f : VForm) | vperm (f : VForm) | vshuf (f : VForm) | vrot (f : VForm) | vslide (f : VForm)
  | vcompress (f : VForm) | vexpand (f : VForm) | vscan (f : VForm) | vpopc (f : VForm) | vclz (f : VForm)
  | vclmul (f : VForm) | vmsk (f : VForm) | vpack (f : VForm) | vunpack (f : VForm) | vsat (f : VForm)
  | vextr (f : VForm) | vins (f : VForm) | viota (f : VForm)
  -- M class, short forms (spec R97)
  | ldI8 (f : MForm) | ldI16 (f : MForm) | ldI32 (f : MForm) | ldN8 (f : MForm) | ldN16 (f : MForm) | ldN32 (f : MForm)
  | ldI64 (f : MForm) | stI8 (f : MForm) | stI16 (f : MForm) | stI32 (f : MForm) | stI64 (f : MForm)
  | ldsI8 (f : MForm) | ldsI16 (f : MForm) | ldsI32 (f : MForm) | ldsN8 (f : MForm) | ldsN16 (f : MForm)
  | ldsN32 (f : MForm) | ldsI64 (f : MForm) | stsI8 (f : MForm) | stsI16 (f : MForm) | stsI32 (f : MForm)
  | stsI64 (f : MForm) | ldv (f : MForm) | stv (f : MForm) | ldsv (f : MForm) | stsv (f : MForm)
  | touch (f : MForm) | qmark | fence (tok : BitVec 6) (scope : BitVec 6) | waitf (d : Spec) (tok : BitVec 6) (u : Bool)
  | waitfComplete (sid : Nat)
  -- M class, long forms
  | ldAcq (f : AForm) | stRel (f : AForm) | gather (f : AForm) | scatter (f : AForm) | aadd (f : AForm) | amin (f : AForm)
  | amax (f : AForm) | alog (f : AForm) | axchg (f : AForm) | acas (f : AForm) | mred (f : AForm) | mcas (f : AForm)
  | msacc (f : AForm) | tlwait (f : TForm) | tlread (f : TForm) | tlreadErr (f : TForm) | nestw (f : TForm) | copyn (f : TForm)
  | copyPageInResume (ctx : Nat) | copyCommandComplete (ctx n : Nat)
  -- X class: the cube (spec R98, R241)
  | cnest (f : LForm) | cdesc (f : LForm) | cubeMm (f : LForm) | cplane (f : LForm) | cmode (f : LForm) | czero (f : LForm)
  | cfill (f : LForm) | cdrain (f : LForm) | crprog (f : LForm) | ccode (f : LForm) | ccodeswap (f : LForm)
  | cresume (f : LForm) | cresumeAbandon (f : LForm)
  | cubeStop (ctx : Nat) (mismatch : Bool) | cubeWaitingRestart (ctx : Nat) | cubeCommandComplete (ctx : Nat)
  | steadyWindowSample (temps : List Nat)
  -- X class: fabric and parcels (spec R263, R283)
  | fst (f : LForm) | fstv (f : LForm) | fatom (f : LForm) | ffadd (f : LForm) | freq (f : LForm) | fbar (f : LForm)
  | fbarAdd (f : LForm) | fbwait (f : LForm) | fcoll (f : LForm) | fcwait (f : LForm) | fdrain (f : LForm) | fhold (f : LForm)
  | frelease (f : LForm) | palloc (f : LForm) | pfree (f : LForm) | pld (f : LForm) | pst (f : LForm) | post (f : LForm)
  | precvArm (f : LForm) | precv (f : LForm) | pstat (f : LForm)
  -- X class: refinement (spec R301)
  | refine (f : LForm) | rlstat (f : LForm) | rlabort (f : LForm) | rlrung (f : LForm)
  | rlcBlockStart (ctx : Nat) | rlcStageEnd (ctx : Nat) | rlcBlockExit (ctx : Nat)
  -- Chuck and the cores
  | gangPlacement | clusterReservation | strandSlotFree (sid : Nat) | contextEntryGrant | waitSpinExpiry (sid : Nat)
  | waitTargetSatisfied (sid : Nat) | agingPriorityRaise (sid : Nat) | idleWake (sid : Nat) | pageResidentResume (sid : Nat)
  | preemptTimeout (sid : Nat) | leaseExpiry (sid : Nat) (page : Nat)
  | migrationRoundEnd (pasid page : Nat) | migrationFreezeEnd (pasid page : Nat)
  -- received transactions (spec R310)
  | write (t : Txn) | writeS (t : Txn) | atomic (t : Txn) | faddC (t : Txn) | bank (t : Txn) | req (t : Txn)
  | collIn (t : Txn) | collOut (t : Txn) | pline (t : Txn) | pcommit (t : Txn) | pabort (t : Txn) | mark (link : Nat) (t : Txn)
  | done (t : Txn) | reply (t : Txn) | markAck (link : Nat) (t : Txn) | answerTimeout (tag : Nat) | parcelArmTimeout (slot : Nat)
  -- Spindle flits and link events (spec R311 to R325)
  | dataFlit (port : Nat) (flit : BitVec 640) | idleFlit (port : Nat) (flit : BitVec 640) | nak (port : Nat) (flit : BitVec 640)
  | replayTimeout (port : Nat) | marker (port : Nat) (flit : BitVec 640) | markerAck (port : Nat) (flit : BitVec 640)
  | width (port : Nat) (flit : BitVec 640) | lossOfLight (port : Nat) (dark : BitVec 16) | laserFail (laser : Nat)
  | wavelengthRestored (port w : Nat) | portGoDark (port : Nat) | portRelock (port : Nat)
  | portWavelengthDisable (port : Nat) (dis : BitVec 16) | laserEnableWrite (laser : Nat) (en : Bool)
  | darkingComplete (port : Nat) | relockComplete (port partner pkind : Nat) | relockTimeout (port : Nat)
  | ualinkTraining (port lanes partner pkind : Nat)
  -- clocks, rails, memory stack (spec R326 to R335)
  | vtrimTick (cluster slack : Nat) | clockWindowEnd (cluster mstall istall : Nat) | clockVupEnd (cluster : Nat) (cap : Bool)
  | clockFswEnd (cluster : Nat) | clockVdownEnd (cluster : Nat) | clkLimitWrite (part cluster : Nat) (v : W64)
  | hbmTempSample (stack : Nat) (sample : HbmSample) | shareWindowEnd (avail : List Nat) | bwShareWrite (part : Nat) (v : W64)
  | promotionSwap (stack : Nat) (frameA frameB : CountedFrame) (dieA dieB : Nat) | swapComplete (e : SwapEnd)
  | chuckCtxWrite (v : W64) | reqCapWrite (area : Nat) (v : W64)
  -- host packets and management (spec R340 to R346)
  | queueTailDoorbell (queue tail : Nat) | launchPacket (queue : Nat) (p : Pkt) | copyPacket (queue : Nat) (p : Pkt)
  | signalPacket (queue : Nat) (p : Pkt) | waitPacket (queue : Nat) (p : Pkt) | waitNodeSatisfied (node : Nat)
  | refinePacket (queue : Nat) (p : Pkt) | cubePacket (queue : Nat) (p : Pkt)
  | mgmtCsrw (queue : Nat) (p : Pkt) | mgmtPreempt (queue : Nat) (p : Pkt) | mgmtNfree (queue : Nat) (p : Pkt)
  | mgmtInval (queue : Nat) (p : Pkt) | mgmtMigrate (queue : Nat) (p : Pkt) | mgmtScrub (queue : Nat) (p : Pkt)
  | scrubComplete (frame : Nat) | mgmtRevoke (queue : Nat) (p : Pkt) | mgmtRoute (queue : Nat) (p : Pkt)
  | mgmtPcreate (queue : Nat) (p : Pkt) | mgmtPassign (queue : Nat) (p : Pkt) | mgmtPteardown (queue : Nat) (p : Pkt)
  | partitionTeardownComplete (part : Nat) | mgmtQcreate (queue : Nat) (p : Pkt) | mgmtQdestroy (queue : Nat) (p : Pkt)
  | mgmtVfmap (queue : Nat) (p : Pkt) | mgmtPasiddown (queue : Nat) (p : Pkt) | pasiddownComplete (pasid : Nat)
  | mgmtEvq (queue : Nat) (p : Pkt) | mgmtPstage (queue : Nat) (p : Pkt) | patchHandover | mgmtAttest (queue : Nat) (p : Pkt)
  | atsCompletion (queue : Nat) (p : Option Pkt) | priTimeout (queue : Nat)
  | deviceReset (pfail spared : BitVec 9) (rails : List Nat) | priPageResponse (queue : Nat) (granted : Bool)
  | hostWrite (pa : Nat) (bytes : List Byte) | ualinkReadRequest (port tag : Nat) | reservedOpTransaction (t : Txn)
  | flitCrcFailure (port : Nat) (flit : BitVec 640) | ualinkPortDown (port : Nat) | reservedPacketType (queue : Nat) (p : Pkt)
  | accessPerformed (sid acc : Nat) | fabricWritePageInResume (idx : Nat) | saveWritePageInResume (sid : Nat)
  | mgmtCompletionPageInResume (queue : Nat) | attestReportSigned
  deriving DecidableEq, Repr

end Sys2Proof
end

