-- ==== Sys2Proof/Machine/Shapes.lean ====
section
/-! DEFINITION. Shapes: what decode checks of one instruction: the roles of its specifier fields and its code fields (spec R84 to R92, R101
orders 4 and 5). A field is named by its lowest bit over the 64-bit instruction and its width (spec R125). -/

namespace Sys2Proof

/-- A field of an instruction: its lowest bit and its width (spec R125). -/
abbrev Fld := Nat × Nat

/-- The field `(lo, w)` if it is bad. -/
def fldIf (bad : Bool) (lo w : Nat) : List Fld := if bad then [(lo, w)] else []

/-- The role of a specifier field in a form (spec R84). -/
inductive Role where
  /-- not used: reserved, zero -/
  | rz
  /-- a source -/
  | rs
  /-- a destination -/
  | rd
  /-- a source and destination -/
  | rx
  /-- a code the form checks itself -/
  | rk
  deriving DecidableEq, Repr

/-- A specifier field: role, value, lowest bit. -/
structure SpecFld where
  role : Role
  val : Spec
  lo : Nat
  deriving DecidableEq, Repr

/-- What decode checks of one instruction: its specifier fields in the order d, a, b, c, its port base, and the code
fields it finds bad. -/
structure Shape where
  flds : List SpecFld
  pb : Nat
  bad : List Fld
  deriving DecidableEq, Repr

/-- The field reads a register name or constant. -/
def SpecFld.isSrc (f : SpecFld) : Bool := f.role = .rs || f.role = .rx

/-- The field breaks its role: a reserved field that is not zero, or a destination holding 56 to 62 (spec R84). -/
def SpecFld.badField (f : SpecFld) : List Fld :=
  match f.role with
  | .rz => fldIf (f.val ≠ 0) f.lo 6
  | .rd | .rx => fldIf (56 ≤ f.val.toNat && f.val.toNat ≤ 62) f.lo 6
  | .rs | .rk => []

/-- The field holds specifier 63 (spec R84). -/
def SpecFld.bad63 (f : SpecFld) : List Fld :=
  match f.role with
  | .rs | .rd | .rx => fldIf (f.val = 63) f.lo 6
  | .rz | .rk => []

/-- Ports the instruction takes: its sources that name a view (spec R51, R85). -/
def Shape.ports (h : Shape) : Nat := (h.flds.filter fun f => f.isSrc && decide (f.val.toNat < 48)).length

/-- The form has no source field at all. -/
def Shape.noSrc (h : Shape) : Bool := h.flds.all fun f => !f.isSrc

/-- The fields that make the instruction trap `ILLEGAL_FIELD` at decode (spec R101, order 4). -/
def Shape.badFields (h : Shape) : List Fld := h.bad ++ h.flds.flatMap SpecFld.badField

/-- The specifier fields that hold 63 (spec R101, order 5). -/
def Shape.bad63 (h : Shape) : List Fld := h.flds.flatMap SpecFld.bad63

/-! ### Types and codes -/

/-- The element width in bits of a type code (spec R91); 0 for a code that names no element format. -/
def tyW (t : Nat) : Nat :=
  if t = 0 ∨ t = 4 then 8 else if t = 1 ∨ t = 5 then 16 else if t = 2 ∨ t = 6 then 32
  else if t = 3 ∨ t = 7 then 64 else if t = 8 then 4 else if t = 16 then 64 else if t = 17 then 32
  else if t = 18 ∨ t = 19 then 16 else if t = 20 ∨ t = 21 ∨ t = 23 then 8 else if t = 22 ∨ t = 24 then 4 else 0

/-- Type set F (spec R153). -/
def tyF : List Nat := [16, 17, 18, 19]
/-- Type set F3 (spec R153). -/
def tyF3 : List Nat := [17, 18, 19]
/-- Type set I (spec R153). -/
def tyI : List Nat := [0, 1, 2, 3, 4, 5, 6, 7, 8]
/-- Type set W (spec R153). -/
def tyWset : List Nat := [0, 1, 2, 3, 4, 5, 6, 7]
/-- The types `i8` to `n64` (spec R206). -/
def tyScalar : List Nat := [0, 1, 2, 3, 4, 5, 6, 7]
/-- Types of the integer atomics (spec R213). -/
def tyAtomI : List Nat := [2, 3, 6, 7]
/-- Types of `AADD`, `AXCHG`, `ACAS`, `GATHER` and `SCATTER` (spec R208, R213). -/
def tyAtom : List Nat := [2, 3, 6, 7, 16, 17]
/-- A LADDER type code (spec R91). -/
def isLadder (t : Nat) : Bool := t = 25 || t = 26
/-- Result types of `FCVT` (spec R162). -/
def tyCvtD : List Nat := [16, 17, 18, 19, 20, 21, 22, 23, 25, 26]
/-- Source types of `FCVT` (spec R162). -/
def tyCvtS : List Nat := [16, 17, 18, 19, 20, 21, 22, 23, 24, 25, 26]

/-- The ratio of two widths (spec R151). -/
def ratio (w1 w2 : Nat) : Nat := if w1 ≤ w2 then w2 / w1 else w1 / w2

/-- A timeline context of a class and index that R92 lists. -/
def ctxOk (ctx : Nat) : Bool :=
  let c := ctx / 4096
  let i := ctx % 4096
  (c = 0 && i < 256) || (c = 1 && i < 8) || (c = 2 && i < 64) || (c = 3 && i < 16) || (c = 4 && i < 24)
    || (c = 5) || (c = 6 && i < 64)

/-! ### Shapes of the bodies -/

/-- A short S word (spec R86, R93): roles of a and b, and whether U is accepted. -/
def sShape (f : SForm) (b : Role) (u : Bool) (bad : List Fld) : Shape :=
  { flds := [⟨.rd, f.d, 16⟩, ⟨.rs, f.a, 10⟩, ⟨b, f.b, 4⟩], pb := f.pb.toNat, bad := fldIf (f.u && !u) 0 1 ++ bad }

/-- A bit range of a tail's mod field that must be zero (spec R90). -/
def modZ (m : BitVec 22) (lo w : Nat) : List Fld := fldIf (bfld m lo w ≠ 0) (32 + lo) w

/-- A long S or X instruction (spec R86, R90): roles of d, a, b, c and the bad fields of mod. -/
def lShape (f : LForm) (d a b c : Role) (bad : List Fld) : Shape :=
  let h : Shape := { flds := [⟨d, f.d, 16⟩, ⟨a, f.a, 10⟩, ⟨b, f.b, 4⟩, ⟨c, f.c, 54⟩], pb := f.pb.toNat, bad := [] }
  { h with bad := fldIf (f.ru && h.noSrc) 1 1 ++ bad }

/-- An SI-I word (spec R87). -/
def iShape (f : IForm) (bad : List Fld) : Shape :=
  { flds := [⟨.rd, f.d, 19⟩, ⟨.rs, f.a, 13⟩], pb := f.pb.toNat, bad := bad }

/-- The tail fields a V form uses (spec R153). -/
structure VUse where
  r : Bool := false
  z : Bool := false
  o : Bool := false
  s : Bool := false
  t : Bool := false
  k : Bool := false

/-- A VF instruction (spec R90, R153): roles, types, source types, fields used, smallest lat code. -/
def fShape (f : FForm) (d a b c : Role) (tys : List Nat) (ty2 : List Nat) (u : VUse) (lat : Nat) (bad : List Fld) : Shape :=
  { flds := [⟨d, f.d, 16⟩, ⟨a, f.a, 10⟩, ⟨b, f.b, 4⟩, ⟨c, f.c, 54⟩], pb := f.pb.toNat,
    bad := fldIf (!(tys.contains f.typ.toNat)) 49 5 ++ fldIf (f.lat.toNat < lat) 47 2 ++ fldIf (f.rne && !u.r) 46 1
      ++ fldIf (f.fzi && !u.z) 45 1 ++ fldIf (f.fzo && !u.o) 44 1 ++ fldIf (f.sat && !u.s) 43 1
      ++ fldIf (if u.t then !(ty2.contains f.typ2.toNat) else f.typ2 ≠ 0) 38 5
      ++ fldIf (!u.k && f.cc ≠ 0) 34 4 ++ bad }

/-- A VI instruction (spec R90, R153): roles, types, SAT and cc used, whether imm is used, smallest lat code. -/
def vShape (f : VForm) (d a b c : Role) (tys : List Nat) (s k m : Bool) (lat : Nat) (bad : List Fld) : Shape :=
  { flds := [⟨d, f.d, 16⟩, ⟨a, f.a, 10⟩, ⟨b, f.b, 4⟩, ⟨c, f.c, 54⟩], pb := f.pb.toNat,
    bad := fldIf (!(tys.contains f.typ.toNat)) 49 5 ++ fldIf (f.lat.toNat < lat) 47 2 ++ fldIf (f.sat && !s) 46 1
      ++ fldIf (!m && f.imm ≠ 0) 38 8 ++ fldIf (!k && f.cc ≠ 0) 34 4 ++ bad }

/-- A short load or `TOUCH` or store (spec R97, R203). -/
def mShape (f : MForm) (d : Role) : Shape :=
  { flds := [⟨d, f.d, 16⟩, ⟨.rs, f.a, 10⟩, ⟨.rs, f.b, 4⟩], pb := f.pb.toNat, bad := [] }

/-- A long M instruction of ops 0x20 to 0x2C (spec R90): roles, types, whether the scope field is used. -/
def aShape (f : AForm) (d b c : Role) (tys : List Nat) (scope : Bool) (bad : List Fld) : Shape :=
  { flds := [⟨d, f.d, 16⟩, ⟨.rs, f.a, 10⟩, ⟨b, f.b, 4⟩, ⟨c, f.c, 54⟩], pb := f.pb.toNat,
    bad := fldIf (!(tys.contains f.typ.toNat)) 49 5
      ++ fldIf (if scope then decide (4 < f.scope.toNat) else f.scope ≠ 0) 46 3 ++ bad }

/-- A long M instruction of ops 0x2D to 0x30 (spec R90, R227): roles, whether only copy contexts are accepted. -/
def tShape (f : TForm) (d a b c : Role) (copy : Bool) : Shape :=
  let h : Shape := { flds := [⟨d, f.d, 16⟩, ⟨a, f.a, 10⟩, ⟨b, f.b, 4⟩, ⟨c, f.c, 54⟩], pb := f.pb.toNat, bad := [] }
  { h with bad := fldIf (f.ru && h.noSrc) 1 1
      ++ fldIf (!(ctxOk f.ctx.toNat) || (copy && decide (4096 ≤ f.ctx.toNat))) 32 16 }

/-- A word with no operands and no code to check. -/
def noShape : Shape := { flds := [], pb := 0, bad := [] }

/-- The pair of codes of a bit-field form: pos at mod `[21:16]`, len at `[15:9]` (spec R108). -/
def bfBad (m : BitVec 22) : List Fld :=
  fldIf (bfld m 9 7 = 0 || decide (64 < bfld m 9 7) || decide (64 < bfld m 16 6 + bfld m 9 7)) 41 7

/-- The width of a conversion result is below that of its source, or a LADDER code stands in a field (spec R161). -/
def cvtReadsD (t t2 : Nat) : Bool := isLadder t || isLadder t2 || decide (tyW t < tyW t2)

/-- The part index of a VF conversion is out of range, where both widths are known: a type code that names no format is an offence of its
own and bounds no part (spec R101, R153, R161). -/
def partBad (t t2 p : Nat) : Bool := tyW t ≠ 0 && tyW t2 ≠ 0 && decide (ratio (tyW t) (tyW t2) ≤ p)

/-- The lane index of a VI form is past the lanes of its type, where the type names an element (spec R101). -/
def laneBad (f : VForm) : List Fld := fldIf (tyW f.typ.toNat ≠ 0 && decide (2048 / tyW f.typ.toNat ≤ f.imm.toNat)) 38 8

/-- A slot code of `CZERO` or `CDRAIN` is reserved (spec R240). -/
def slotBad (src : Nat) : Bool := decide (32 ≤ src) && decide (src < 64)

/-- Element types of `CDESC` (spec R241). -/
def tyCdesc : List Nat := [0, 4, 8, 18, 19, 20, 21, 22, 23, 24, 25, 26]

/-- The types with whole elements of 4 bits that `FPACKSD` packs (spec R165). -/
def ty4 : List Nat := [8, 22]

/-- What decode checks of an instruction (spec R93 to R100 and the tables of the instruction chapters). -/
def Instr.shape : Instr → Shape
  | .add f | .sub f | .mul f | .and f | .or f | .xor f | .andn f | .orn f | .shl f | .shr f | .sar f | .rol f | .ror f
  | .clmul f | .clmulh f | .cmpEq f | .cmpNe f => sShape f .rs false []
  | .mulh f | .div f | .rem f | .min f | .max f | .cmpLt f | .cmpGe f => sShape f .rs true []
  | .clz f | .ctz f | .popc f | .brev f | .bswap f | .mov f => sShape f .rz false []
  | .sext f | .zext f => sShape f .rk false (fldIf (2 < f.b.toNat) 4 6)
  | .bfx f => lShape f .rd .rs .rz .rz (bfBad f.mod ++ modZ f.mod 0 8)
  | .bfi f => lShape f .rx .rs .rz .rz (bfBad f.mod ++ modZ f.mod 0 9)
  | .sel f => lShape f .rd .rs .rs .rs (modZ f.mod 0 22)
  | .lea f => lShape f .rd .rs .rs .rz []
  | .addi f | .andi f | .ori f | .xori f => iShape f []
  | .shli f | .shri f => iShape f (fldIf (bfld f.imm 6 4 ≠ 0) 6 4)
  | .movi d _ => { flds := [⟨.rd, d, 19⟩], pb := 0, bad := [] }
  | .movhi f => { flds := [⟨.rd, f.d, 19⟩, ⟨.rs, f.a, 13⟩], pb := f.pb.toNat, bad := [] }
  | .brc f | .brv f => { flds := [⟨.rs, f.a, 16⟩], pb := f.pb.toNat, bad := [] }
  | .loop f => { flds := [⟨.rx, f.a, 16⟩], pb := f.pb.toNat, bad := fldIf (f.cc ≠ 0) 22 2 }
  | .calli a pb => { flds := [⟨.rs, a, 16⟩], pb := pb.toNat, bad := [] }
  | .spawn a b pb => { flds := [⟨.rs, a, 16⟩, ⟨.rs, b, 10⟩], pb := pb.toNat, bad := [] }
  | .loopn a pb n => { flds := [⟨.rs, a, 16⟩], pb := pb.toNat, bad := fldIf (n = 0) 0 8 }
  | .phint f | .rotcfg f => { flds := [⟨.rs, f.a, 18⟩, ⟨.rs, f.b, 12⟩, ⟨.rs, f.c, 6⟩], pb := f.pb.toNat, bad := [] }
  | .spalloc f | .spfree f => { flds := [⟨.rs, f.a, 18⟩, ⟨.rs, f.b, 12⟩, ⟨.rz, f.c, 6⟩], pb := f.pb.toNat, bad := [] }
  | .csrr f => { flds := [⟨.rd, f.r, 18⟩], pb := 0, bad := fldIf (f.pb ≠ 0) 16 2 }
  | .csrw f | .csrs f | .csrc f => { flds := [⟨.rs, f.r, 18⟩], pb := f.pb.toNat, bad := [] }
  | .fadd f | .fsub f | .fmul f => fShape f .rd .rs .rs .rz tyF [] { r := true, z := true, o := true } 1 []
  | .fma f | .fms f | .fnma f | .fnms f => fShape f .rd .rs .rs .rs tyF [] { r := true, z := true, o := true } 1 []
  | .fdiv f => fShape f .rd .rs .rs .rz tyF [] { r := true, z := true, o := true } 3 []
  | .fsqrt f => fShape f .rd .rs .rz .rz tyF [] { r := true, z := true, o := true } 3 []
  | .fscale f => fShape f .rd .rs .rs .rz tyF [] { r := true, z := true, o := true } 1 []
  | .fround f => fShape f .rd .rs .rz .rz tyF [] { r := true, z := true } 1 []
  | .fmin f | .fmax f => fShape f .rd .rs .rs .rz tyF [] { z := true } 0 []
  | .fabs f | .fneg f => fShape f .rd .rs .rz .rz tyF [] {} 0 []
  | .fcpys f => fShape f .rd .rs .rs .rz tyF [] {} 0 []
  | .frcp f | .frsq f | .fexp2 f | .flog2 f | .ftanh f => fShape f .rd .rs .rz .rz tyF3 [] { z := true, o := true } 2 []
  | .fcmp f => fShape f .rd .rs .rs .rz tyF [] { z := true, k := true } 0 (fldIf (7 < f.cc.toNat) 34 4)
  | .fclass f => fShape f .rd .rs .rz .rz tyF [] {} 0 []
  | .fcvt f =>
    fShape f (if cvtReadsD f.typ.toNat f.typ2.toNat then .rx else .rd) .rs (if f.typ2 = 24 || isLadder f.typ2.toNat then .rs else .rk) .rz tyCvtD tyCvtS
      { r := true, z := true, o := true, s := true, t := true, k := true } 1
      (fldIf (f.sat && !(isLadder f.typ.toNat) && f.typ ≠ 20 && f.typ ≠ 21) 43 1 ++ fldIf (f.typ2 ≠ 24 && !(isLadder f.typ2.toNat) && f.b ≠ 60) 4 6
        ++ fldIf (partBad f.typ.toNat f.typ2.toNat f.cc.toNat) 34 4)
  | .fcvti f =>
    fShape f (if cvtReadsD f.typ.toNat f.typ2.toNat then .rx else .rd) .rs .rz .rz tyWset tyF
      { r := true, z := true, t := true, k := true } 1 (fldIf (partBad f.typ.toNat f.typ2.toNat f.cc.toNat) 34 4)
  | .icvtf f =>
    fShape f (if cvtReadsD f.typ.toNat f.typ2.toNat then .rx else .rd) .rs .rz .rz tyF tyWset { r := true, t := true, k := true } 1
      (fldIf (partBad f.typ.toNat f.typ2.toNat f.cc.toNat) 34 4)
  | .fsumr f => fShape f .rd .rs .rz .rz tyF [] { r := true, z := true, o := true } 3 []
  | .fdot f =>
    fShape f .rd .rs .rs .rs [17] [18, 19, 20, 21, 22, 23] { r := true, z := true, o := true, t := true } 2 []
  | .fbscale f =>
    fShape f .rd .rs .rs .rk [17] [17, 18, 19, 20, 21, 22, 23, 0, 4, 8] { r := true, z := true, o := true, t := true, k := true } 1
      (fldIf (7 < f.c.toNat) 54 6 ++ fldIf (partBad f.typ.toNat f.typ2.toNat f.cc.toNat) 34 4)
  | .fpacksd f =>
    fShape f .rx .rs (if ty4.contains f.typ.toNat then .rs else .rk) .rz [0, 4, 8, 18, 19, 20, 21, 22, 23] [17]
      { r := true, z := true, s := true, t := true, k := true } 2
      (fldIf (f.sat && f.typ ≠ 20 && f.typ ≠ 21) 43 1 ++ fldIf (!(ty4.contains f.typ.toNat) && f.b ≠ 60) 4 6
        ++ fldIf (3 < f.cc.toNat) 34 4)
  | .funpacksd f =>
    fShape f .rd .rs .rs .rk [17] [] { r := true, z := true, o := true, k := true } 2
      (fldIf (1 < f.c.toNat) 54 6 ++ fldIf (3 < f.cc.toNat) 34 4)
  | .normacc f => fShape f .rz .rs .rz .rk tyF [] { z := true } 2 []
  | .vadd f | .vsub f => vShape f .rd .rs .rs .rz tyI true false false 0 []
  | .vmul f => vShape f .rd .rs .rs .rz tyI true false false 1 []
  | .vmulh f => vShape f .rd .rs .rs .rz tyI false false false 1 []
  | .vmadd f => vShape f .rd .rs .rs .rs tyI true false false 1 []
  | .vdot4 f => vShape f .rd .rs .rs .rs [2, 6] true false true 1
      (fldIf (bfld f.imm 0 5 ≠ 0 && bfld f.imm 0 5 ≠ 4) 38 5 ++ fldIf (bfld f.imm 5 3 ≠ 0) 43 3)
  | .vmin f | .vmax f | .vand f | .vor f | .vxor f | .vandn f | .vshl f | .vshr f | .vsar f =>
    vShape f .rd .rs .rs .rz tyI false false false 0 []
  | .vabs f => vShape f .rd .rs .rz .rz tyI true false false 0 []
  | .vcmp f => vShape f .rd .rs .rs .rz tyWset false true false 0 (fldIf (5 < f.cc.toNat) 34 4)
  | .vsel f => vShape f .rd .rs .rs .rs tyWset false false false 0 []
  | .vmsk f | .viota f => vShape f .rd .rs .rz .rz tyWset false false false 0 []
  | .vbcast f => vShape f .rd .rs .rz .rz tyI false false false 0 []
  | .vextr f => vShape f .rd .rs .rz .rz tyI false false true 0 (laneBad f)
  | .vins f => vShape f .rx .rs .rz .rz tyI false false true 0 (laneBad f)
  | .vperm f => vShape f .rd .rs .rs .rz tyWset false false false 1 []
  | .vshuf f => vShape f .rd .rs .rs .rs tyWset false false false 1 []
  | .vrot f => vShape f .rd .rs .rz .rz tyWset false false true 1 (laneBad f)
  | .vslide f => vShape f .rd .rs .rs .rz tyWset false false true 1 (laneBad f)
  | .vcompress f | .vexpand f => vShape f .rd .rs .rs .rz tyWset false false false 1 []
  | .vscan f => vShape f .rd .rs .rz .rz tyI true false true 2
      (fldIf (5 < bfld f.imm 0 3) 38 3 ++ fldIf (bfld f.imm 4 4 ≠ 0) 42 4 ++ fldIf (f.sat && bfld f.imm 0 3 ≠ 0) 46 1)
  | .vpopc f | .vclz f => vShape f .rd .rs .rz .rz tyI false false false 0 []
  | .vclmul f => vShape f .rd .rs .rs .rz [3, 7] false false true 1 (fldIf (bfld f.imm 1 7 ≠ 0) 39 7)
  | .vpack f => vShape f .rd .rs .rs .rz tyI true false true 1
      (fldIf (!(tyI.contains (bfld f.imm 0 5)) || (tyW f.typ.toNat ≠ 0 && tyW (bfld f.imm 0 5) ≠ 2 * tyW f.typ.toNat)) 38 5
        ++ fldIf (bfld f.imm 5 3 ≠ 0) 43 3)
  | .vunpack f => vShape f .rd .rs .rz .rz tyWset false false true 1
      (fldIf (!(tyI.contains (bfld f.imm 0 5)) || (tyW f.typ.toNat ≠ 0 && (decide (tyW f.typ.toNat ≤ tyW (bfld f.imm 0 5))
          || decide (8 < ratio (tyW f.typ.toNat) (tyW (bfld f.imm 0 5)))))) 38 5
        ++ fldIf (tyW f.typ.toNat ≠ 0 && tyW (bfld f.imm 0 5) ≠ 0
          && decide (ratio (tyW f.typ.toNat) (tyW (bfld f.imm 0 5)) ≤ bfld f.imm 5 3)) 43 3)
  | .vsat f => vShape f .rd .rs .rz .rz tyI false false true 0
      (fldIf (!(tyI.contains (bfld f.imm 0 5)) || (tyW f.typ.toNat ≠ 0 && decide (tyW f.typ.toNat < tyW (bfld f.imm 0 5)))) 38 5
        ++ fldIf (bfld f.imm 5 3 ≠ 0) 43 3)
  | .ldI8 f | .ldI16 f | .ldI32 f | .ldN8 f | .ldN16 f | .ldN32 f | .ldI64 f | .ldsI8 f | .ldsI16 f | .ldsI32 f
  | .ldsN8 f | .ldsN16 f | .ldsN32 f | .ldsI64 f | .ldv f | .ldsv f => mShape f .rd
  | .stI8 f | .stI16 f | .stI32 f | .stI64 f | .stsI8 f | .stsI16 f | .stsI32 f | .stsI64 f | .stv f | .stsv f =>
    mShape f .rs
  | .touch f => mShape f .rz
  | .fence tok scope => { noShape with bad := fldIf (7 < tok.toNat) 16 6 ++ fldIf (4 < scope.toNat) 10 6 }
  | .waitf d tok u => { flds := [⟨if u then .rd else .rz, d, 16⟩], pb := 0, bad := fldIf (7 < tok.toNat) 10 6 }
  | .ldAcq f => aShape f .rd .rs .rz tyScalar true (fldIf (f.fn ≠ 0) 42 4)
  | .stRel f => aShape f .rs .rs .rz tyScalar true (fldIf (f.fn ≠ 0) 42 4)
  | .gather f => aShape f .rd .rs .rs tyAtom false (fldIf (bfld f.fn 2 2 ≠ 0) 44 2)
  | .scatter f => aShape f .rs .rs .rs tyAtom false (fldIf (bfld f.fn 2 2 ≠ 0) 44 2)
  | .aadd f | .axchg f => aShape f .rd .rs .rz tyAtom true (fldIf (bfld f.fn 0 2 ≠ 0) 42 2)
  | .amin f | .amax f => aShape f .rd .rs .rz tyAtomI true (fldIf (bfld f.fn 0 2 ≠ 0) 42 2)
  | .alog f => aShape f .rd .rs .rz tyAtomI true (fldIf (bfld f.fn 0 2 = 3) 42 2)
  | .acas f => aShape f .rd .rs .rs tyAtom true (fldIf (bfld f.fn 0 2 ≠ 0) 42 2)
  | .mred f => aShape f .rs .rz .rz (tyWset ++ tyF) false
      (fldIf (5 < bfld f.fn 0 3 || (decide (3 ≤ bfld f.fn 0 3) && decide (16 ≤ f.typ.toNat))) 42 3
        ++ fldIf (bbit f.fn 3 && (bfld f.fn 0 3 ≠ 0 || decide (16 ≤ f.typ.toNat))) 45 1)
  | .mcas f => aShape f .rd .rs .rs tyScalar false (fldIf (f.fn ≠ 0) 42 4)
  | .msacc f => aShape f .rs .rs .rz tyF false (fldIf (f.fn ≠ 0) 42 4)
  | .tlwait f => tShape f .rz .rs .rz .rz false
  | .tlread f | .tlreadErr f => tShape f .rd .rz .rz .rz false
  | .nestw f => tShape f .rz .rs .rz .rz true
  | .copyn f => tShape f .rd .rs .rs .rs true
  | .cnest f => lShape f .rz .rs .rz .rz (modZ f.mod 0 22)
  | .cdesc f => lShape f .rs .rs .rs .rs
      (fldIf (!(tyCdesc.contains (bfld f.mod 17 5)) || (bfld f.mod 14 2 = 1 && bfld f.mod 17 5 ≠ 0)) 49 5
        ++ fldIf (bfld f.mod 14 2 = 3) 46 2
        ++ fldIf (bfld f.mod 9 4 ≠ 0 && (bfld f.mod 17 5 ≠ 24 || bfld f.mod 14 2 = 1)) 41 4 ++ modZ f.mod 0 9)
  | .cubeMm f => lShape f .rd .rk .rk .rk (fldIf (bbit f.a 5) 15 1 ++ fldIf (bbit f.b 3) 7 1)
  | .cplane f => lShape f .rd .rk .rk .rk (fldIf (bfld f.a 3 3 ≠ 0) 13 3 ++ fldIf (bbit f.b 3) 7 1 ++ modZ f.mod 17 5)
  | .cmode f => lShape f .rz .rz .rz .rz
      (fldIf (bfld f.mod 14 8 = 0) 46 8 ++ fldIf (bbit f.mod 13 && bbit f.mod 12) 44 1 ++ modZ f.mod 0 12)
  | .czero f => lShape f .rz .rz .rz .rz (fldIf (slotBad (bfld f.mod 15 7)) 47 7 ++ modZ f.mod 0 15)
  | .cfill f => lShape f .rd .rs .rs .rs (modZ f.mod 0 15)
  | .cdrain f => lShape f .rd .rs .rs .rk
      (fldIf (bfld f.c 1 2 = 3) 55 2 ++ fldIf (slotBad (bfld f.mod 15 7)) 47 7 ++ modZ f.mod 0 1)
  | .crprog f => lShape f .rd .rz .rz .rz (fldIf (bfld f.mod 17 2 = 3) 49 2 ++ modZ f.mod 0 17)
  | .ccode f => lShape f .rz .rs .rz .rz (modZ f.mod 0 18)
  | .ccodeswap f => lShape f .rz .rz .rz .rz (modZ f.mod 0 6)
  | .cresume f => lShape f .rz .rz .rz .rz (modZ f.mod 0 18 ++ modZ f.mod 18 1)
  | .cresumeAbandon f => lShape f .rz .rz .rz .rz (modZ f.mod 0 18 ++ fldIf (!(bbit f.mod 18)) 50 1)
  | .fst f => lShape f .rs .rs .rs .rz (fldIf (7 < bfld f.mod 11 5) 43 5 ++ modZ f.mod 0 10)
  | .fstv f => lShape f .rd .rs .rs .rs []
  | .fatom f => lShape f .rd .rs .rs .rs
      (fldIf (!(tyAtom.contains (bfld f.mod 11 5))) 43 5
        ++ fldIf (bfld f.mod 7 3 = 7 || (decide (16 ≤ bfld f.mod 11 5) && bfld f.mod 7 3 ≠ 0 && bfld f.mod 7 3 ≠ 6)) 39 3
        ++ modZ f.mod 0 7)
  | .ffadd f => lShape f .rd .rs .rs .rs (fldIf (!(tyAtomI.contains (bfld f.mod 11 5))) 43 5 ++ modZ f.mod 0 10)
  | .freq f => lShape f .rd .rs .rs .rz (modZ f.mod 0 16)
  | .fbar f => lShape f .rz .rs .rs .rz (modZ f.mod 21 1 ++ modZ f.mod 0 21)
  | .fbarAdd f => lShape f .rz .rs .rs .rz (fldIf (!(bbit f.mod 21)) 53 1 ++ modZ f.mod 0 21)
  | .fbwait f => lShape f .rz .rs .rz .rz (modZ f.mod 0 22)
  | .fcoll f => lShape f .rd .rs .rz .rz (modZ f.mod 0 16)
  | .fcwait f => lShape f .rz .rs .rz .rz (modZ f.mod 0 16)
  | .fdrain f => lShape f .rd .rs .rz .rz (modZ f.mod 0 16)
  | .fhold f => lShape f .rz .rs .rs .rz (modZ f.mod 0 21)
  | .frelease f => lShape f .rz .rs .rs .rz (modZ f.mod 0 22)
  | .palloc f => lShape f .rd .rs .rs .rz (modZ f.mod 0 22)
  | .pfree f => lShape f .rz .rs .rz .rz (modZ f.mod 0 22)
  | .pld f => lShape f .rd .rs .rs .rz (pkindBad f.mod)
  | .pst f => lShape f .rs .rs .rs .rz (pkindBad f.mod)
  | .post f => lShape f .rd .rs .rs .rs (modZ f.mod 0 16)
  | .precvArm f => lShape f .rd .rs .rs .rz
      (fldIf (!(bbit f.mod 16)) 48 1 ++ fldIf (bfld f.mod 12 4 ≠ 5) 32 16 ++ modZ f.mod 17 5)
  | .precv f => lShape f .rd .rs .rz .rz (fldIf (bbit f.mod 16) 48 1 ++ fldIf (bfld f.mod 12 4 ≠ 5) 32 16 ++ modZ f.mod 17 5)
  | .pstat f => lShape f .rd .rs .rz .rz (fldIf (bfld f.mod 20 2 = 3) 52 2 ++ modZ f.mod 0 20)
  | .refine f => lShape f .rd .rs .rz .rz (modZ f.mod 20 2 ++ modZ f.mod 0 16)
  | .rlstat f => lShape f .rd .rz .rz .rz (modZ f.mod 0 16)
  | .rlabort f => lShape f .rz .rz .rz .rz (modZ f.mod 20 2 ++ modZ f.mod 0 16)
  | .rlrung f => lShape f .rz .rs .rz .rz (modZ f.mod 20 2 ++ modZ f.mod 0 16)
  | _ => noShape
where
  /-- The kind and type fields of `PLD` and `PST` (spec R283). -/
  pkindBad (m : BitVec 22) : List Fld :=
    fldIf (bfld m 15 2 = 3) 47 2
      ++ fldIf ((bfld m 15 2 = 0 && decide (7 < bfld m 17 5)) || (bfld m 15 2 = 1 && bfld m 17 5 ≠ 6)
          || (bfld m 15 2 = 2 && bfld m 17 5 ≠ 0)) 49 5

end Sys2Proof
end

