-- ==== Sys2Proof/WellFormed.lean ====
section
/-! DEFINITION. Well-formed instructions: no field rule that decode checks on one instruction is broken (spec R84 to R92, R101 orders 4
and 5). -/

namespace Sys2Proof

/-- A well-formed instruction: no field that decode refuses (spec R101, orders 4 and 5, for one instruction alone). -/
def Instr.wf (i : Instr) : Bool :=
  let h := i.shape
  h.badFields.isEmpty && h.bad63.isEmpty && (h.ports = 0 || decide (h.pb + h.ports ≤ 4))

end Sys2Proof
end

