-- ==== Sys2Proof/Decode.lean ====
section
/-! DEFINITION. Decode: words, packets and bundles to instructions, total on any words, rejecting by name (spec R80 to
R103); and after it the encoder, from the same encoding tables. -/

namespace Sys2Proof

/-- The traps of decode, each with the offending field (spec R101, R125). -/
inductive DecErr where
  /-- `ILLEGAL_BUNDLE`: orders 1 and 5 -/
  | illegalBundle (f : Fld)
  /-- `ILLEGAL_OPCODE`: order 2 -/
  | illegalOpcode (f : Fld)
  /-- `ILLEGAL_PIPE`: order 3 -/
  | illegalPipe (f : Fld)
  /-- `ILLEGAL_FIELD`: order 4 -/
  | illegalField (f : Fld)
  deriving DecidableEq, Repr

/-! ### Bodies -/

/-- The S body (spec R86). -/
def getS (h : W32) : SForm :=
  { d := h.extractLsb' 16 6, a := h.extractLsb' 10 6, b := h.extractLsb' 4 6, pb := h.extractLsb' 2 2,
    ru := h.getLsbD 1, u := h.getLsbD 0 }

/-- A long S or X instruction (spec R82, R86, R90). -/
def getL (h t : W32) : LForm :=
  { d := h.extractLsb' 16 6, a := h.extractLsb' 10 6, b := h.extractLsb' 4 6, c := t.extractLsb' 22 6,
    pb := h.extractLsb' 2 2, ru := h.getLsbD 1, mod := t.extractLsb' 0 22 }

/-- The SI-I body (spec R87). -/
def getI (h : W32) : IForm :=
  { d := h.extractLsb' 19 6, a := h.extractLsb' 13 6, pb := h.extractLsb' 11 2, ru := h.getLsbD 10,
    imm := h.extractLsb' 0 10 }

/-- The SI-H body and tail (spec R87). -/
def getH (h t : W32) : HForm :=
  { d := h.extractLsb' 19 6, a := h.extractLsb' 13 6, pb := h.extractLsb' 11 2, ru := h.getLsbD 10,
    sh := t.extractLsb' 16 2, imm := t.extractLsb' 0 16 }

/-- The BC body (spec R88). -/
def getC (h : W32) : CForm :=
  { cc := h.extractLsb' 22 2, a := h.extractLsb' 16 6, pb := h.extractLsb' 14 2, off := h.extractLsb' 0 14 }

/-- The YR body (spec R89). -/
def getR (h : W32) : RForm :=
  { a := h.extractLsb' 18 6, b := h.extractLsb' 12 6, c := h.extractLsb' 6 6, pb := h.extractLsb' 4 2 }

/-- The YC body (spec R89). -/
def getK (h : W32) : KForm :=
  { r := h.extractLsb' 18 6, pb := h.extractLsb' 16 2, csr := h.extractLsb' 0 12 }

/-- A VF instruction (spec R86, R90). -/
def getF (h t : W32) : FForm :=
  { d := h.extractLsb' 16 6, a := h.extractLsb' 10 6, b := h.extractLsb' 4 6, c := t.extractLsb' 22 6,
    pb := h.extractLsb' 2 2, ru := h.getLsbD 1, typ := t.extractLsb' 17 5, lat := t.extractLsb' 15 2,
    rne := t.getLsbD 14, fzi := t.getLsbD 13, fzo := t.getLsbD 12, sat := t.getLsbD 11,
    typ2 := t.extractLsb' 6 5, cc := t.extractLsb' 2 4 }

/-- A VI instruction (spec R86, R90). -/
def getV (h t : W32) : VForm :=
  { d := h.extractLsb' 16 6, a := h.extractLsb' 10 6, b := h.extractLsb' 4 6, c := t.extractLsb' 22 6,
    pb := h.extractLsb' 2 2, ru := h.getLsbD 1, typ := t.extractLsb' 17 5, lat := t.extractLsb' 15 2,
    sat := t.getLsbD 14, imm := t.extractLsb' 6 8, cc := t.extractLsb' 2 4 }

/-- A short M word (spec R86, R97). -/
def getM (h : W32) : MForm :=
  { d := h.extractLsb' 16 6, a := h.extractLsb' 10 6, b := h.extractLsb' 4 6, pb := h.extractLsb' 2 2, ru := h.getLsbD 1 }

/-- A long M instruction of ops 0x20 to 0x2C (spec R90). -/
def getA (h t : W32) : AForm :=
  { d := h.extractLsb' 16 6, a := h.extractLsb' 10 6, b := h.extractLsb' 4 6, c := t.extractLsb' 22 6,
    pb := h.extractLsb' 2 2, ru := h.getLsbD 1, typ := t.extractLsb' 17 5, scope := t.extractLsb' 14 3,
    fn := t.extractLsb' 10 4 }

/-- A long M instruction of ops 0x2D to 0x30 (spec R90, R227). -/
def getT (h t : W32) : TForm :=
  { d := h.extractLsb' 16 6, a := h.extractLsb' 10 6, b := h.extractLsb' 4 6, c := t.extractLsb' 22 6,
    pb := h.extractLsb' 2 2, ru := h.getLsbD 1, ctx := t.extractLsb' 0 16 }

/-! ### The opcode map -/

/-- Class S (spec R93). -/
def buildS (op : Nat) (h t : W32) : Option Instr :=
  match op with
  | 0x01 => some (.add (getS h))
  | 0x02 => some (.sub (getS h))
  | 0x03 => some (.mul (getS h))
  | 0x04 => some (.mulh (getS h))
  | 0x05 => some (.div (getS h))
  | 0x06 => some (.rem (getS h))
  | 0x07 => some (.min (getS h))
  | 0x08 => some (.max (getS h))
  | 0x09 => some (.and (getS h))
  | 0x0A => some (.or (getS h))
  | 0x0B => some (.xor (getS h))
  | 0x0C => some (.andn (getS h))
  | 0x0D => some (.orn (getS h))
  | 0x0E => some (.shl (getS h))
  | 0x0F => some (.shr (getS h))
  | 0x10 => some (.sar (getS h))
  | 0x11 => some (.rol (getS h))
  | 0x12 => some (.ror (getS h))
  | 0x13 => some (.clz (getS h))
  | 0x14 => some (.ctz (getS h))
  | 0x15 => some (.popc (getS h))
  | 0x16 => some (.brev (getS h))
  | 0x17 => some (.bswap (getS h))
  | 0x18 => some (.clmul (getS h))
  | 0x19 => some (.clmulh (getS h))
  | 0x1A => some (.mov (getS h))
  | 0x1B => some (.sext (getS h))
  | 0x1C => some (.zext (getS h))
  | 0x1D => some (.cmpEq (getS h))
  | 0x1E => some (.cmpNe (getS h))
  | 0x1F => some (.cmpLt (getS h))
  | 0x20 => some (.cmpGe (getS h))
  | 0x30 => some (.bfx (getL h t))
  | 0x31 => some (.bfi (getL h t))
  | 0x32 => some (.sel (getL h t))
  | 0x33 => some (.lea (getL h t))
  | _ => none

/-- Class SI (spec R94). -/
def buildSI (op : Nat) (h t : W32) : Option Instr :=
  match op with
  | 0 => some (.addi (getI h))
  | 1 => some (.andi (getI h))
  | 2 => some (.ori (getI h))
  | 3 => some (.xori (getI h))
  | 4 => some (.shli (getI h))
  | 5 => some (.shri (getI h))
  | 6 => some (.movi (h.extractLsb' 19 6) (h.extractLsb' 0 19))
  | 7 => some (.movhi (getH h t))
  | _ => none

/-- Class VF (spec R95). -/
def buildVF (op : Nat) (h t : W32) : Option Instr :=
  match op with
  | 0x00 => some (.fadd (getF h t))
  | 0x01 => some (.fsub (getF h t))
  | 0x02 => some (.fmul (getF h t))
  | 0x03 => some (.fma (getF h t))
  | 0x04 => some (.fms (getF h t))
  | 0x05 => some (.fnma (getF h t))
  | 0x06 => some (.fnms (getF h t))
  | 0x07 => some (.fmin (getF h t))
  | 0x08 => some (.fmax (getF h t))
  | 0x09 => some (.fabs (getF h t))
  | 0x0A => some (.fneg (getF h t))
  | 0x0B => some (.fcpys (getF h t))
  | 0x0C => some (.fdiv (getF h t))
  | 0x0D => some (.fsqrt (getF h t))
  | 0x0E => some (.frcp (getF h t))
  | 0x0F => some (.frsq (getF h t))
  | 0x10 => some (.fexp2 (getF h t))
  | 0x11 => some (.flog2 (getF h t))
  | 0x12 => some (.ftanh (getF h t))
  | 0x13 => some (.fcmp (getF h t))
  | 0x14 => some (.fclass (getF h t))
  | 0x15 => some (.fscale (getF h t))
  | 0x16 => some (.fround (getF h t))
  | 0x17 => some (.fcvt (getF h t))
  | 0x18 => some (.fcvti (getF h t))
  | 0x19 => some (.icvtf (getF h t))
  | 0x1A => some (.fsumr (getF h t))
  | 0x1B => some (.fdot (getF h t))
  | 0x1C => some (.fbscale (getF h t))
  | 0x1D => some (.fpacksd (getF h t))
  | 0x1E => some (.funpacksd (getF h t))
  | 0x1F => some (.normacc (getF h t))
  | _ => none

/-- Class VI (spec R96). -/
def buildVI (op : Nat) (h t : W32) : Option Instr :=
  match op with
  | 0x00 => some (.vadd (getV h t))
  | 0x01 => some (.vsub (getV h t))
  | 0x02 => some (.vmul (getV h t))
  | 0x03 => some (.vmulh (getV h t))
  | 0x04 => some (.vmadd (getV h t))
  | 0x05 => some (.vdot4 (getV h t))
  | 0x06 => some (.vmin (getV h t))
  | 0x07 => some (.vmax (getV h t))
  | 0x08 => some (.vabs (getV h t))
  | 0x09 => some (.vand (getV h t))
  | 0x0A => some (.vor (getV h t))
  | 0x0B => some (.vxor (getV h t))
  | 0x0C => some (.vandn (getV h t))
  | 0x0D => some (.vshl (getV h t))
  | 0x0E => some (.vshr (getV h t))
  | 0x0F => some (.vsar (getV h t))
  | 0x10 => some (.vcmp (getV h t))
  | 0x11 => some (.vsel (getV h t))
  | 0x12 => some (.vbcast (getV h t))
  | 0x13 => some (.vperm (getV h t))
  | 0x14 => some (.vshuf (getV h t))
  | 0x15 => some (.vrot (getV h t))
  | 0x16 => some (.vslide (getV h t))
  | 0x17 => some (.vcompress (getV h t))
  | 0x18 => some (.vexpand (getV h t))
  | 0x19 => some (.vscan (getV h t))
  | 0x1A => some (.vpopc (getV h t))
  | 0x1B => some (.vclz (getV h t))
  | 0x1C => some (.vclmul (getV h t))
  | 0x1D => some (.vmsk (getV h t))
  | 0x1E => some (.vpack (getV h t))
  | 0x1F => some (.vunpack (getV h t))
  | 0x20 => some (.vsat (getV h t))
  | 0x21 => some (.vextr (getV h t))
  | 0x22 => some (.vins (getV h t))
  | 0x23 => some (.viota (getV h t))
  | _ => none

/-- Class M (spec R97, R227). -/
def buildM (op : Nat) (h t : W32) : Option Instr :=
  match op with
  | 0x00 => some (.ldI8 (getM h))
  | 0x01 => some (.ldI16 (getM h))
  | 0x02 => some (.ldI32 (getM h))
  | 0x03 => some (.ldN8 (getM h))
  | 0x04 => some (.ldN16 (getM h))
  | 0x05 => some (.ldN32 (getM h))
  | 0x06 => some (.ldI64 (getM h))
  | 0x07 => some (.stI8 (getM h))
  | 0x08 => some (.stI16 (getM h))
  | 0x09 => some (.stI32 (getM h))
  | 0x0A => some (.stI64 (getM h))
  | 0x0B => some (.ldsI8 (getM h))
  | 0x0C => some (.ldsI16 (getM h))
  | 0x0D => some (.ldsI32 (getM h))
  | 0x0E => some (.ldsN8 (getM h))
  | 0x0F => some (.ldsN16 (getM h))
  | 0x10 => some (.ldsN32 (getM h))
  | 0x11 => some (.ldsI64 (getM h))
  | 0x12 => some (.stsI8 (getM h))
  | 0x13 => some (.stsI16 (getM h))
  | 0x14 => some (.stsI32 (getM h))
  | 0x15 => some (.stsI64 (getM h))
  | 0x16 => some (.ldv (getM h))
  | 0x17 => some (.stv (getM h))
  | 0x18 => some (.ldsv (getM h))
  | 0x19 => some (.stsv (getM h))
  | 0x1A => some (.touch (getM h))
  | 0x1B => some .qmark
  | 0x1C => some (.fence (h.extractLsb' 16 6) (h.extractLsb' 10 6))
  | 0x1D => some (.waitf (h.extractLsb' 16 6) (h.extractLsb' 10 6) (h.getLsbD 0))
  | 0x20 => some (.ldAcq (getA h t))
  | 0x21 => some (.stRel (getA h t))
  | 0x22 => some (.gather (getA h t))
  | 0x23 => some (.scatter (getA h t))
  | 0x24 => some (.aadd (getA h t))
  | 0x25 => some (.amin (getA h t))
  | 0x26 => some (.amax (getA h t))
  | 0x27 => some (.alog (getA h t))
  | 0x28 => some (.axchg (getA h t))
  | 0x29 => some (.acas (getA h t))
  | 0x2A => some (.mred (getA h t))
  | 0x2B => some (.mcas (getA h t))
  | 0x2C => some (.msacc (getA h t))
  | 0x2D => some (.tlwait (getT h t))
  | 0x2E => some (if h.getLsbD 0 then .tlreadErr (getT h t) else .tlread (getT h t))
  | 0x2F => some (.nestw (getT h t))
  | 0x30 => some (.copyn (getT h t))
  | _ => none

/-- Class X (spec R98, R241, R263, R283, R301). -/
def buildX (op : Nat) (h t : W32) : Option Instr :=
  match op with
  | 0x00 => some (.cnest (getL h t))
  | 0x01 => some (.cdesc (getL h t))
  | 0x02 => some (.cubeMm (getL h t))
  | 0x03 => some (.cplane (getL h t))
  | 0x04 => some (.cmode (getL h t))
  | 0x05 => some (.czero (getL h t))
  | 0x06 => some (.cfill (getL h t))
  | 0x07 => some (.cdrain (getL h t))
  | 0x08 => some (.crprog (getL h t))
  | 0x09 => some (.ccode (getL h t))
  | 0x0A => some (.ccodeswap (getL h t))
  | 0x0B => some (if t.getLsbD 18 then .cresumeAbandon (getL h t) else .cresume (getL h t))
  | 0x10 => some (.fst (getL h t))
  | 0x11 => some (.fstv (getL h t))
  | 0x12 => some (.fatom (getL h t))
  | 0x13 => some (.ffadd (getL h t))
  | 0x14 => some (.freq (getL h t))
  | 0x15 => some (if t.getLsbD 21 then .fbarAdd (getL h t) else .fbar (getL h t))
  | 0x16 => some (.fbwait (getL h t))
  | 0x17 => some (.fcoll (getL h t))
  | 0x18 => some (.fcwait (getL h t))
  | 0x19 => some (.fdrain (getL h t))
  | 0x1A => some (.fhold (getL h t))
  | 0x1B => some (.frelease (getL h t))
  | 0x1C => some (.palloc (getL h t))
  | 0x1D => some (.pfree (getL h t))
  | 0x1E => some (.pld (getL h t))
  | 0x1F => some (.pst (getL h t))
  | 0x20 => some (.post (getL h t))
  | 0x21 => some (if t.getLsbD 16 then .precvArm (getL h t) else .precv (getL h t))
  | 0x22 => some (.pstat (getL h t))
  | 0x28 => some (.refine (getL h t))
  | 0x29 => some (.rlstat (getL h t))
  | 0x2A => some (.rlabort (getL h t))
  | 0x2B => some (.rlrung (getL h t))
  | _ => none

/-- Class B (spec R99). -/
def buildB (op : Nat) (h : W32) : Option Instr :=
  match op with
  | 0 => some (.br (h.extractLsb' 0 24))
  | 1 => some (.brc (getC h))
  | 2 => some (.brv (getC h))
  | 3 => some (.call (h.extractLsb' 0 24))
  | 4 => some (.calli (h.extractLsb' 16 6) (h.extractLsb' 8 2))
  | 5 => some .ret
  | 6 => some (.enter (h.extractLsb' 0 11))
  | 7 => some (.loop (getC h))
  | 8 => some (.loopn (h.extractLsb' 16 6) (h.extractLsb' 14 2) (h.extractLsb' 0 8))
  | 9 => some .suspend
  | 10 => some .yield
  | 11 => some (.spawn (h.extractLsb' 16 6) (h.extractLsb' 10 6) (h.extractLsb' 8 2))
  | 12 => some .stage
  | 13 => some .trig
  | 14 => some .exit
  | 15 => some .nop
  | _ => none

/-- Class Y (spec R100). -/
def buildY (op : Nat) (h : W32) : Option Instr :=
  match op with
  | 0 => some (.trap (h.extractLsb' 0 16))
  | 1 => some .trapfence
  | 2 => some (.phint (getR h))
  | 3 => some (.csrr (getK h))
  | 4 => some (.csrw (getK h))
  | 5 => some (.csrs (getK h))
  | 6 => some (.csrc (getK h))
  | 7 => some (.view (h.extractLsb' 22 2) (h.extractLsb' 0 18))
  | 8 => some (.rotcfg (getR h))
  | 9 => some (.rotate (h.extractLsb' 0 11))
  | 10 => some .rft
  | 11 => some .idle
  | 12 => some .synci
  | 13 => some (.spalloc (getR h))
  | 14 => some (.spfree (getR h))
  | _ => none

/-- The opcode of a head (spec R80, R86 to R89). -/
def headOp (h : W32) : Nat :=
  let c := bfld h 28 3
  if c = 1 then bfld h 25 3 else if c = 6 ∨ c = 7 then bfld h 24 4 else bfld h 22 6

/-- The class and opcode make a long form (spec R80). -/
def isLong (cls op : Nat) : Bool :=
  (cls = 0 && decide (0x30 ≤ op)) || (cls = 1 && op = 7) || cls = 2 || cls = 3 || (cls = 4 && decide (0x20 ≤ op)) || cls = 5

/-- The pipe of a class: 0 S, 1 V, 2 M, 3 X (spec R80). -/
def pipeOf (cls : Nat) : Nat := if cls = 2 ∨ cls = 3 then 1 else if cls = 4 then 2 else if cls = 5 then 3 else 0

/-- The instruction a class, an opcode, a head and a tail make; none for an unassigned opcode (spec R93 to R100). -/
def build (cls op : Nat) (h t : W32) : Option Instr :=
  if cls = 0 then buildS op h t else if cls = 1 then buildSI op h t else if cls = 2 then buildVF op h t
  else if cls = 3 then buildVI op h t else if cls = 4 then buildM op h t else if cls = 5 then buildX op h t
  else if cls = 6 then buildB op h else buildY op h

/-- A reserved field of a word that is not zero: lowest bit and width in the word, and the offset to add (spec R101). -/
def resv (w : W32) (lo len off : Nat) : List Fld := fldIf (bfld w lo len ≠ 0) (lo + off) len

/-- The nonzero reserved fields that no field of the instruction holds (spec R86 to R90). In `FENCE` and `WAITF` the places of pb and RU are such
fields (R84), though a form with a pb field and no source ignores it (R51; log entry 90). -/
def reservedBits (cls op : Nat) (h t : W32) : List Fld :=
  if cls = 0 then (if 0x30 ≤ op then resv h 0 1 0 else [])
  else if cls = 1 then (if op = 7 then resv h 0 10 0 ++ resv t 22 6 32 ++ resv t 18 4 32 else [])
  else if cls = 2 then resv h 0 1 0 ++ resv t 0 2 32
  else if cls = 3 then resv h 0 1 0 ++ resv t 0 2 32
  else if cls = 4 then
    (if op ≤ 0x1A then resv h 0 1 0
    else if op = 0x1B then resv h 16 6 0 ++ resv h 10 6 0 ++ resv h 4 6 0 ++ resv h 2 2 0 ++ resv h 1 1 0 ++ resv h 0 1 0
    else if op = 0x1C then resv h 4 6 0 ++ resv h 2 2 0 ++ resv h 1 1 0 ++ resv h 0 1 0
    else if op = 0x1D then resv h 4 6 0 ++ resv h 2 2 0 ++ resv h 1 1 0
    else if op ≤ 0x2C then resv h 0 1 0 ++ resv t 0 10 32
    else (if op = 0x2E then [] else resv h 0 1 0) ++ resv t 16 6 32)
  else if cls = 5 then resv h 0 1 0
  else if cls = 6 then
    (if op = 4 then resv h 22 2 0 ++ resv h 10 6 0 ++ resv h 0 8 0
    else if op = 11 then resv h 22 2 0 ++ resv h 0 8 0
    else if op = 8 then resv h 22 2 0 ++ resv h 8 6 0
    else if op = 6 then resv h 11 13 0
    else if op = 5 ∨ op = 9 ∨ op = 10 ∨ 12 ≤ op then resv h 0 24 0 else [])
  else
    (if op = 0 then resv h 16 8 0
    else if op = 1 ∨ op = 10 ∨ op = 11 ∨ op = 12 then resv h 0 24 0
    else if op = 2 ∨ op = 8 ∨ op = 13 ∨ op = 14 then resv h 0 4 0
    else if op = 7 then resv h 18 4 0
    else if op = 9 then resv h 11 13 0
    else resv h 12 4 0)

/-- The field with the lowest bit among those found bad: where several fields of one instruction fail order 4 the rule names none of them
(log entry 38). -/
def lowestFld : List Fld → Option Fld
  | [] => none
  | f :: t => match lowestFld t with
    | none => some f
    | some g => if g.1 < f.1 then some g else some f

/-- The opcode field of a class (spec R86 to R89). -/
def opField (cls : Nat) : Fld := if cls = 1 then (25, 3) else if cls = 6 ∨ cls = 7 then (24, 4) else (22, 6)

/-- The port base field of a class and an opcode (spec R86 to R89). -/
def pbField (cls op : Nat) : Fld :=
  if cls = 1 then (11, 2) else if cls = 6 then (if op = 4 ∨ op = 11 then (8, 2) else (14, 2))
  else if cls = 7 then (if 3 ≤ op ∧ op ≤ 6 then (16, 2) else (4, 2)) else (2, 2)

/-- The fields of an instruction that breach order 5 of R101: specifiers 63, and the port base where its ports do not fit. -/
def orderFive (cls op : Nat) (i : Instr) (clash : Bool) : List Fld := i.shape.bad63 ++ (if clash then [pbField cls op] else [])

/-- One instruction decoded alone: the checks of orders 2, 4 and 5 of R101 that need no state. -/
def decodeInstr (h t : W32) : Except DecErr Instr :=
  match build (bfld h 28 3) (headOp h) h t with
  | none => .error (.illegalOpcode (opField (bfld h 28 3)))
  | some i =>
    match lowestFld (reservedBits (bfld h 28 3) (headOp h) h t ++ i.shape.badFields) with
    | some f => .error (.illegalField f)
    | none =>
      if i.wf then .ok i
      else .error (.illegalBundle ((lowestFld (orderFive (bfld h 28 3) (headOp h) i (decide (4 < i.shape.pb + i.shape.ports)))).getD (0, 0)))

/-! ### Bundles -/

/-- An instruction placed in a packet: its word index, its head as fetched, its tail (zero for a short form), its class
and opcode. -/
structure Part where
  wi : Nat
  head : W32
  tail : W32
  cls : Nat
  op : Nat
  deriving DecidableEq, Repr

/-- The chain of a bundle (spec R82, R83): its parts, the word index after it (3 for the next packet), and what breaks order 1 of R101: the
word index of the instruction, and the field in it (spec R125; log entry 91). -/
structure Chain where
  parts : List Part
  next : Nat
  errs : List (Nat × Fld)
  deriving DecidableEq, Repr

/-- The earlier parts on the same pipe: their class fields. -/
def pipeClash (ps : List Part) (cls : Nat) : List (Nat × Fld) :=
  (ps.filter fun p => pipeOf p.cls = pipeOf cls).map fun p => (p.wi, (28, 3))

/-- Follows the chain from word `p` of a packet (spec R82, R83). -/
def chainFrom : Nat → List W32 → Nat → Chain → Chain
  | 0, _, _, c => c
  | n + 1, ws, p, c =>
    let h := ws.getD p 0
    let cls := bfld h 28 3
    let op := headOp h
    let long := isLong cls op
    let t := if long then ws.getD (p + 1) 0 else 0
    let clash := pipeClash c.parts cls
    let parts := c.parts ++ [{ wi := p, head := h, tail := t, cls := cls, op := op }]
    if long && p = 2 then { parts := parts, next := 3, errs := c.errs ++ clash ++ [(2, (31, 1))] }
    else
      let e : List (Nat × Fld) :=
        (if long && !(h.getLsbD 31) then [(p, (31, 1))] else []) ++ (if long && bfld t 28 3 ≠ cls then [(p, (60, 3))] else [])
      let last := if long then p + 1 else p
      let errs := c.errs ++ clash ++ e
      if !((ws.getD last 0).getLsbD 31) then { parts := parts, next := last + 1, errs := errs }
      else if last = 2 then { parts := parts, next := 3, errs := errs ++ [(p, (if long then 63 else 31, 1))] }
      else chainFrom n ws (last + 1) { parts := parts, next := 3, errs := errs }

/-- The bundle that begins at word `wi` of a packet (spec R83). -/
def chain (ws : List W32) (wi : Nat) : Chain := chainFrom 3 ws wi { parts := [], next := 3, errs := [] }

/-- What decode asks of the machine: whether the core is the CIC (order 3), and which control registers this strand may
read and write (order 4). -/
structure DecCtx where
  cic : Bool
  csrRead : Nat → Bool
  csrWrite : Nat → Bool

/-- The CSR check of order 4 of R101. -/
def csrBad (cx : DecCtx) : Instr → List Fld
  | .csrr f => fldIf (!(cx.csrRead f.csr.toNat)) 0 12
  | .csrw f | .csrs f | .csrc f => fldIf (!(cx.csrWrite f.csr.toNat)) 0 12
  | _ => []

/-- A decode trap: the error, the word index and the word it names. -/
structure DecTrap where
  err : DecErr
  wi : Nat
  word : W32
  deriving DecidableEq, Repr

/-- The breach of order 1 that decides: the lowest word index, and its lowest field. -/
def leastOf : List (Nat × Fld) → Option (Nat × Fld)
  | [] => none
  | x :: t => match leastOf t with
    | none => some x
    | some y => if y.1 < x.1 || (y.1 = x.1 && y.2.1 < x.2.1) then some y else some x

/-- The first part whose check answers a trap. -/
def firstBad (f : Part → Option DecErr) : List Part → Option DecTrap
  | [] => none
  | p :: t => match f p with
    | some e => some { err := e, wi := p.wi, word := p.head }
    | none => firstBad f t

/-- The order 2 check. -/
def badOpcode (p : Part) : Option DecErr :=
  if (build p.cls p.op p.head p.tail).isNone then some (.illegalOpcode (opField p.cls)) else none

/-- The order 3 check: a cube form on a vector core. -/
def badPipe (cx : DecCtx) (p : Part) : Option DecErr :=
  if !cx.cic && p.cls = 5 && decide (p.op ≤ 0x0B) then some (.illegalPipe (opField 5)) else none

/-- The order 4 check. -/
def badField (cx : DecCtx) (p : Part) : Option DecErr :=
  match build p.cls p.op p.head p.tail with
  | none => none
  | some i =>
    (lowestFld (reservedBits p.cls p.op p.head p.tail ++ i.shape.badFields ++ csrBad cx i)).map DecErr.illegalField

/-- The port numbers an instruction takes (spec R51). -/
def portsOf (i : Instr) : List Nat := rangeFrom i.shape.pb i.shape.ports

/-- The ports that the parts of a bundle other than the one at word `wi` take. -/
def portsBeside (wi : Nat) (ps : List Part) : List Nat :=
  ps.flatMap fun p => if p.wi = wi then [] else ((build p.cls p.op p.head p.tail).map portsOf).getD []

/-- The order 5 check of a part: specifier 63, a port past 3, or a port that another part takes too (spec R51, R101). -/
def badPorts (ps : List Part) (p : Part) : Option DecErr :=
  match build p.cls p.op p.head p.tail with
  | none => none
  | some i =>
    (lowestFld (orderFive p.cls p.op i ((portsOf i).any fun q => decide (3 < q) || (portsBeside p.wi ps).contains q))).map DecErr.illegalBundle

/-- The instructions of the parts, in word order. -/
def instrsOf (ps : List Part) : List (Part × Instr) :=
  ps.filterMap fun p => (build p.cls p.op p.head p.tail).map fun i => (p, i)

/-- The bundle at word `wi` of a packet: its instructions and the word index after it, or the trap of R101. -/
def decodeBundle (cx : DecCtx) (ws : List W32) (wi : Nat) : Except DecTrap (List (Part × Instr)) × Nat :=
  let c := chain ws wi
  (match leastOf c.errs with
    | some e => .error { err := .illegalBundle e.2, wi := e.1, word := ws.getD e.1 0 }
    | none =>
      match firstBad badOpcode c.parts with
      | some t => .error t
      | none =>
        match firstBad (badPipe cx) c.parts with
        | some t => .error t
        | none =>
          match firstBad (badField cx) c.parts with
          | some t => .error t
          | none =>
            match firstBad (badPorts c.parts) c.parts with
            | some t => .error t
            | none => .ok (instrsOf c.parts), c.next)

/-! ### The encoder -/

/-- The words of an instruction, with the chain bit of its last word clear (spec R80, R82). -/
inductive Enc where
  /-- a short form -/
  | short (w : W32)
  /-- a long form: head and tail -/
  | long (h t : W32)
  /-- a step of the device, which has no words -/
  | none
  deriving DecidableEq, Repr

/-- A short S word (spec R86). -/
def putS (op : BitVec 6) (f : SForm) : W32 :=
  0#1 ++ 0#3 ++ op ++ f.d ++ f.a ++ f.b ++ f.pb ++ BitVec.ofBool f.ru ++ BitVec.ofBool f.u

/-- A long S or X instruction (spec R82, R86, R90). -/
def putL (cls : BitVec 3) (op : BitVec 6) (f : LForm) : Enc :=
  .long (1#1 ++ cls ++ op ++ f.d ++ f.a ++ f.b ++ f.pb ++ BitVec.ofBool f.ru ++ 0#1) (0#1 ++ cls ++ f.c ++ f.mod)

/-- An SI-I word (spec R87). -/
def putI (op : BitVec 3) (f : IForm) : W32 :=
  0#1 ++ 1#3 ++ op ++ f.d ++ f.a ++ f.pb ++ BitVec.ofBool f.ru ++ f.imm

/-- `MOVHI` (spec R87). -/
def putH (f : HForm) : Enc :=
  .long (1#1 ++ 1#3 ++ 7#3 ++ f.d ++ f.a ++ f.pb ++ BitVec.ofBool f.ru ++ 0#10) (0#1 ++ 1#3 ++ 0#10 ++ f.sh ++ f.imm)

/-- A BC word (spec R88). -/
def putC (op : BitVec 4) (f : CForm) : W32 := 0#1 ++ 6#3 ++ op ++ f.cc ++ f.a ++ f.pb ++ f.off

/-- A YR word (spec R89). -/
def putR (op : BitVec 4) (f : RForm) : W32 := 0#1 ++ 7#3 ++ op ++ f.a ++ f.b ++ f.c ++ f.pb ++ 0#4

/-- A YC word (spec R89). -/
def putK (op : BitVec 4) (f : KForm) : W32 := 0#1 ++ 7#3 ++ op ++ f.r ++ f.pb ++ 0#4 ++ f.csr

/-- A VF instruction (spec R86, R90). -/
def putF (op : BitVec 6) (f : FForm) : Enc :=
  .long (1#1 ++ 2#3 ++ op ++ f.d ++ f.a ++ f.b ++ f.pb ++ BitVec.ofBool f.ru ++ 0#1)
    (0#1 ++ 2#3 ++ f.c ++ f.typ ++ f.lat ++ BitVec.ofBool f.rne ++ BitVec.ofBool f.fzi ++ BitVec.ofBool f.fzo
      ++ BitVec.ofBool f.sat ++ f.typ2 ++ f.cc ++ 0#2)

/-- A VI instruction (spec R86, R90). -/
def putV (op : BitVec 6) (f : VForm) : Enc :=
  .long (1#1 ++ 3#3 ++ op ++ f.d ++ f.a ++ f.b ++ f.pb ++ BitVec.ofBool f.ru ++ 0#1)
    (0#1 ++ 3#3 ++ f.c ++ f.typ ++ f.lat ++ BitVec.ofBool f.sat ++ f.imm ++ f.cc ++ 0#2)

/-- A short load, store or `TOUCH` (spec R86, R97). -/
def putM (op : BitVec 6) (f : MForm) : W32 :=
  0#1 ++ 4#3 ++ op ++ f.d ++ f.a ++ f.b ++ f.pb ++ BitVec.ofBool f.ru ++ 0#1

/-- A long M instruction of ops 0x20 to 0x2C (spec R90). -/
def putA (op : BitVec 6) (f : AForm) : Enc :=
  .long (1#1 ++ 4#3 ++ op ++ f.d ++ f.a ++ f.b ++ f.pb ++ BitVec.ofBool f.ru ++ 0#1)
    (0#1 ++ 4#3 ++ f.c ++ f.typ ++ f.scope ++ f.fn ++ 0#10)

/-- A long M instruction of ops 0x2D to 0x30 (spec R90, R227); `u` is the head's U bit. -/
def putT (op : BitVec 6) (u : BitVec 1) (f : TForm) : Enc :=
  .long (1#1 ++ 4#3 ++ op ++ f.d ++ f.a ++ f.b ++ f.pb ++ BitVec.ofBool f.ru ++ u) (0#1 ++ 4#3 ++ f.c ++ 0#6 ++ f.ctx)

/-- The words of an instruction (spec R93 to R100); the steps of the device have none. -/
def encode : Instr → Enc
  | .add f => .short (putS 0x01 f)
  | .sub f => .short (putS 0x02 f)
  | .mul f => .short (putS 0x03 f)
  | .mulh f => .short (putS 0x04 f)
  | .div f => .short (putS 0x05 f)
  | .rem f => .short (putS 0x06 f)
  | .min f => .short (putS 0x07 f)
  | .max f => .short (putS 0x08 f)
  | .and f => .short (putS 0x09 f)
  | .or f => .short (putS 0x0A f)
  | .xor f => .short (putS 0x0B f)
  | .andn f => .short (putS 0x0C f)
  | .orn f => .short (putS 0x0D f)
  | .shl f => .short (putS 0x0E f)
  | .shr f => .short (putS 0x0F f)
  | .sar f => .short (putS 0x10 f)
  | .rol f => .short (putS 0x11 f)
  | .ror f => .short (putS 0x12 f)
  | .clz f => .short (putS 0x13 f)
  | .ctz f => .short (putS 0x14 f)
  | .popc f => .short (putS 0x15 f)
  | .brev f => .short (putS 0x16 f)
  | .bswap f => .short (putS 0x17 f)
  | .clmul f => .short (putS 0x18 f)
  | .clmulh f => .short (putS 0x19 f)
  | .mov f => .short (putS 0x1A f)
  | .sext f => .short (putS 0x1B f)
  | .zext f => .short (putS 0x1C f)
  | .cmpEq f => .short (putS 0x1D f)
  | .cmpNe f => .short (putS 0x1E f)
  | .cmpLt f => .short (putS 0x1F f)
  | .cmpGe f => .short (putS 0x20 f)
  | .bfx f => putL 0 0x30 f
  | .bfi f => putL 0 0x31 f
  | .sel f => putL 0 0x32 f
  | .lea f => putL 0 0x33 f
  | .addi f => .short (putI 0 f)
  | .andi f => .short (putI 1 f)
  | .ori f => .short (putI 2 f)
  | .xori f => .short (putI 3 f)
  | .shli f => .short (putI 4 f)
  | .shri f => .short (putI 5 f)
  | .movi d imm => .short (0#1 ++ 1#3 ++ 6#3 ++ d ++ imm)
  | .movhi f => putH f
  | .fadd f => putF 0x00 f
  | .fsub f => putF 0x01 f
  | .fmul f => putF 0x02 f
  | .fma f => putF 0x03 f
  | .fms f => putF 0x04 f
  | .fnma f => putF 0x05 f
  | .fnms f => putF 0x06 f
  | .fmin f => putF 0x07 f
  | .fmax f => putF 0x08 f
  | .fabs f => putF 0x09 f
  | .fneg f => putF 0x0A f
  | .fcpys f => putF 0x0B f
  | .fdiv f => putF 0x0C f
  | .fsqrt f => putF 0x0D f
  | .frcp f => putF 0x0E f
  | .frsq f => putF 0x0F f
  | .fexp2 f => putF 0x10 f
  | .flog2 f => putF 0x11 f
  | .ftanh f => putF 0x12 f
  | .fcmp f => putF 0x13 f
  | .fclass f => putF 0x14 f
  | .fscale f => putF 0x15 f
  | .fround f => putF 0x16 f
  | .fcvt f => putF 0x17 f
  | .fcvti f => putF 0x18 f
  | .icvtf f => putF 0x19 f
  | .fsumr f => putF 0x1A f
  | .fdot f => putF 0x1B f
  | .fbscale f => putF 0x1C f
  | .fpacksd f => putF 0x1D f
  | .funpacksd f => putF 0x1E f
  | .normacc f => putF 0x1F f
  | .vadd f => putV 0x00 f
  | .vsub f => putV 0x01 f
  | .vmul f => putV 0x02 f
  | .vmulh f => putV 0x03 f
  | .vmadd f => putV 0x04 f
  | .vdot4 f => putV 0x05 f
  | .vmin f => putV 0x06 f
  | .vmax f => putV 0x07 f
  | .vabs f => putV 0x08 f
  | .vand f => putV 0x09 f
  | .vor f => putV 0x0A f
  | .vxor f => putV 0x0B f
  | .vandn f => putV 0x0C f
  | .vshl f => putV 0x0D f
  | .vshr f => putV 0x0E f
  | .vsar f => putV 0x0F f
  | .vcmp f => putV 0x10 f
  | .vsel f => putV 0x11 f
  | .vbcast f => putV 0x12 f
  | .vperm f => putV 0x13 f
  | .vshuf f => putV 0x14 f
  | .vrot f => putV 0x15 f
  | .vslide f => putV 0x16 f
  | .vcompress f => putV 0x17 f
  | .vexpand f => putV 0x18 f
  | .vscan f => putV 0x19 f
  | .vpopc f => putV 0x1A f
  | .vclz f => putV 0x1B f
  | .vclmul f => putV 0x1C f
  | .vmsk f => putV 0x1D f
  | .vpack f => putV 0x1E f
  | .vunpack f => putV 0x1F f
  | .vsat f => putV 0x20 f
  | .vextr f => putV 0x21 f
  | .vins f => putV 0x22 f
  | .viota f => putV 0x23 f
  | .ldI8 f => .short (putM 0x00 f)
  | .ldI16 f => .short (putM 0x01 f)
  | .ldI32 f => .short (putM 0x02 f)
  | .ldN8 f => .short (putM 0x03 f)
  | .ldN16 f => .short (putM 0x04 f)
  | .ldN32 f => .short (putM 0x05 f)
  | .ldI64 f => .short (putM 0x06 f)
  | .stI8 f => .short (putM 0x07 f)
  | .stI16 f => .short (putM 0x08 f)
  | .stI32 f => .short (putM 0x09 f)
  | .stI64 f => .short (putM 0x0A f)
  | .ldsI8 f => .short (putM 0x0B f)
  | .ldsI16 f => .short (putM 0x0C f)
  | .ldsI32 f => .short (putM 0x0D f)
  | .ldsN8 f => .short (putM 0x0E f)
  | .ldsN16 f => .short (putM 0x0F f)
  | .ldsN32 f => .short (putM 0x10 f)
  | .ldsI64 f => .short (putM 0x11 f)
  | .stsI8 f => .short (putM 0x12 f)
  | .stsI16 f => .short (putM 0x13 f)
  | .stsI32 f => .short (putM 0x14 f)
  | .stsI64 f => .short (putM 0x15 f)
  | .ldv f => .short (putM 0x16 f)
  | .stv f => .short (putM 0x17 f)
  | .ldsv f => .short (putM 0x18 f)
  | .stsv f => .short (putM 0x19 f)
  | .touch f => .short (putM 0x1A f)
  | .qmark => .short (0#1 ++ 4#3 ++ 0x1B#6 ++ 0#22)
  | .fence k x => .short (0#1 ++ 4#3 ++ 0x1C#6 ++ k ++ x ++ 0#10)
  | .waitf d k u => .short (0#1 ++ 4#3 ++ 0x1D#6 ++ d ++ k ++ 0#9 ++ BitVec.ofBool u)
  | .ldAcq f => putA 0x20 f
  | .stRel f => putA 0x21 f
  | .gather f => putA 0x22 f
  | .scatter f => putA 0x23 f
  | .aadd f => putA 0x24 f
  | .amin f => putA 0x25 f
  | .amax f => putA 0x26 f
  | .alog f => putA 0x27 f
  | .axchg f => putA 0x28 f
  | .acas f => putA 0x29 f
  | .mred f => putA 0x2A f
  | .mcas f => putA 0x2B f
  | .msacc f => putA 0x2C f
  | .tlwait f => putT 0x2D 0 f
  | .tlread f => putT 0x2E 0 f
  | .tlreadErr f => putT 0x2E 1 f
  | .nestw f => putT 0x2F 0 f
  | .copyn f => putT 0x30 0 f
  | .cnest f => putL 5 0x00 f
  | .cdesc f => putL 5 0x01 f
  | .cubeMm f => putL 5 0x02 f
  | .cplane f => putL 5 0x03 f
  | .cmode f => putL 5 0x04 f
  | .czero f => putL 5 0x05 f
  | .cfill f => putL 5 0x06 f
  | .cdrain f => putL 5 0x07 f
  | .crprog f => putL 5 0x08 f
  | .ccode f => putL 5 0x09 f
  | .ccodeswap f => putL 5 0x0A f
  | .cresume f => putL 5 0x0B f
  | .cresumeAbandon f => putL 5 0x0B f
  | .fst f => putL 5 0x10 f
  | .fstv f => putL 5 0x11 f
  | .fatom f => putL 5 0x12 f
  | .ffadd f => putL 5 0x13 f
  | .freq f => putL 5 0x14 f
  | .fbar f => putL 5 0x15 f
  | .fbarAdd f => putL 5 0x15 f
  | .fbwait f => putL 5 0x16 f
  | .fcoll f => putL 5 0x17 f
  | .fcwait f => putL 5 0x18 f
  | .fdrain f => putL 5 0x19 f
  | .fhold f => putL 5 0x1A f
  | .frelease f => putL 5 0x1B f
  | .palloc f => putL 5 0x1C f
  | .pfree f => putL 5 0x1D f
  | .pld f => putL 5 0x1E f
  | .pst f => putL 5 0x1F f
  | .post f => putL 5 0x20 f
  | .precv f => putL 5 0x21 f
  | .precvArm f => putL 5 0x21 f
  | .pstat f => putL 5 0x22 f
  | .refine f => putL 5 0x28 f
  | .rlstat f => putL 5 0x29 f
  | .rlabort f => putL 5 0x2A f
  | .rlrung f => putL 5 0x2B f
  | .br off => .short (0#1 ++ 6#3 ++ 0#4 ++ off)
  | .brc f => .short (putC 1 f)
  | .brv f => .short (putC 2 f)
  | .call off => .short (0#1 ++ 6#3 ++ 3#4 ++ off)
  | .calli a pb => .short (0#1 ++ 6#3 ++ 4#4 ++ 0#2 ++ a ++ 0#6 ++ pb ++ 0#8)
  | .ret => .short (0#1 ++ 6#3 ++ 5#4 ++ 0#24)
  | .enter g => .short (0#1 ++ 6#3 ++ 6#4 ++ 0#13 ++ g)
  | .loop f => .short (putC 7 f)
  | .loopn a pb n => .short (0#1 ++ 6#3 ++ 8#4 ++ 0#2 ++ a ++ pb ++ 0#6 ++ n)
  | .suspend => .short (0#1 ++ 6#3 ++ 9#4 ++ 0#24)
  | .yield => .short (0#1 ++ 6#3 ++ 10#4 ++ 0#24)
  | .stage => .short (0#1 ++ 6#3 ++ 12#4 ++ 0#24)
  | .trig => .short (0#1 ++ 6#3 ++ 13#4 ++ 0#24)
  | .exit => .short (0#1 ++ 6#3 ++ 14#4 ++ 0#24)
  | .nop => .short (0#1 ++ 6#3 ++ 15#4 ++ 0#24)
  | .spawn a b pb => .short (0#1 ++ 6#3 ++ 11#4 ++ 0#2 ++ a ++ b ++ pb ++ 0#8)
  | .trap c => .short (0#1 ++ 7#3 ++ 0#4 ++ 0#8 ++ c)
  | .trapfence => .short (0#1 ++ 7#3 ++ 1#4 ++ 0#24)
  | .rft => .short (0#1 ++ 7#3 ++ 10#4 ++ 0#24)
  | .idle => .short (0#1 ++ 7#3 ++ 11#4 ++ 0#24)
  | .synci => .short (0#1 ++ 7#3 ++ 12#4 ++ 0#24)
  | .phint f => .short (putR 2 f)
  | .rotcfg f => .short (putR 8 f)
  | .spalloc f => .short (putR 13 f)
  | .spfree f => .short (putR 14 f)
  | .csrr f => .short (putK 3 f)
  | .csrw f => .short (putK 4 f)
  | .csrs f => .short (putK 5 f)
  | .csrc f => .short (putK 6 f)
  | .view v base => .short (0#1 ++ 7#3 ++ 7#4 ++ v ++ 0#4 ++ base)
  | .rotate k => .short (0#1 ++ 7#3 ++ 9#4 ++ 0#13 ++ k)
  | _ => .none

/-- The head and tail a table word of `nbits` bits lays out: word 0 in bits 31 down to 0, word 1 in bits 63 down to 32. -/
def tableWords (nbits w : Nat) : W32 × W32 :=
  let v := w % 2 ^ nbits
  (BitVec.ofNat 32 v, BitVec.ofNat 32 (v >>> 32))

/-- The instruction the decoder reads from a table word; none where it refuses. -/
def decodeTableWord (nbits w : Nat) : Option Instr :=
  let (h, t) := tableWords nbits w
  match decodeInstr h (if isLong (bfld h 28 3) (headOp h) then t else 0) with
  | .ok i => some i
  | .error _ => none

end Sys2Proof
end

