-- ==== Sys2Proof/Machine/Sha.lean ====
section
/-! DEFINITION. SHA-256, which spec R1 names for the digests of reports and of patch sets (spec R348, R350; log entry 15). -/

namespace Sys2Proof.Machine

/-! ### Its constants, from their definition -/

/-- The greatest number under `2 ^ b` above `r` whose `k`-th power is at most `x`, bit by bit from the top. -/
def rootFrom (k x : Nat) : Nat → Nat → Nat
  | 0, r => r
  | b + 1, r => rootFrom k x b (if (r + 2 ^ b) ^ k ≤ x then r + 2 ^ b else r)

/-- The primes under a bound. -/
def primesUnder (n : Nat) : List Nat :=
  (List.range n).filter fun p => decide (2 ≤ p) && (List.range p).all fun d => decide (d < 2) || decide (p % d ≠ 0)

/-- The first 32 bits of the fraction of the `k`-th root of each prime under a bound. -/
def rootWords (k bound : Nat) : List W32 := (primesUnder bound).map fun p => BitVec.ofNat 32 (rootFrom k (p * 2 ^ (32 * k)) 40 0)

/-- The round constants: of the cube roots of the 64 primes under 312. -/
def shaK : List W32 := rootWords 3 312

/-! ### Its rounds -/

/-- Four words of the chaining value, the newest first. -/
structure Quad where
  n0 : W32
  n1 : W32
  n2 : W32
  n3 : W32
  deriving DecidableEq, Repr

/-- A new word enters and the oldest leaves. -/
def Quad.push (q : Quad) (x : W32) : Quad := ⟨x, q.n0, q.n1, q.n2⟩

/-- Word by word addition. -/
def Quad.plus (p q : Quad) : Quad := ⟨p.n0 + q.n0, p.n1 + q.n1, p.n2 + q.n2, p.n3 + q.n3⟩

/-- The words, the newest first. -/
def Quad.words (q : Quad) : List W32 := [q.n0, q.n1, q.n2, q.n3]

/-- The sum modulo two of a word turned right by each of some counts. -/
def turned (x : W32) (ns : List Nat) : W32 := ns.foldl (fun y n => y ^^^ x.rotateRight n) 0

/-- Where the selector has a bit set the second word's bit, elsewhere the third's. -/
def Quad.choose (q : Quad) : W32 := q.n2 ^^^ (q.n0 &&& (q.n1 ^^^ q.n2))

/-- The bit that at least two of the first three words hold. -/
def Quad.most (q : Quad) : W32 := (q.n0 &&& q.n1) ||| (q.n2 &&& (q.n0 ||| q.n1))

/-- One round, with the sum of its constant and its schedule word. -/
def shaRound (v : Quad × Quad) (kw : W32) : Quad × Quad :=
  let t := v.2.n3 + turned v.2.n0 [6, 11, 25] + v.2.choose + kw
  (v.1.push (t + turned v.1.n0 [2, 13, 22] + v.1.most), v.2.push (v.1.n3 + t))

/-- The schedule: `n` more words before those made, the latest first. -/
def shaSchedule : Nat → List W32 → List W32
  | 0, w => w
  | n + 1, w =>
    let early := w.getD 14 0
    let late := w.getD 1 0
    shaSchedule n ((w.getD 15 0 + w.getD 6 0 + (turned early [7, 18] ^^^ early >>> 3) + (turned late [17, 19] ^^^ late >>> 10)) :: w)

/-- Word `i` of a block of 64 bytes, its first byte highest. -/
def blockWord (m : List Byte) (i : Nat) : W32 := BitVec.ofNat 32 (ofBytes ((m.drop (4 * i)).take 4).reverse)

/-- One block on the chaining value. -/
def shaBlock (v : Quad × Quad) (blk : List Byte) : Quad × Quad :=
  let w := (shaSchedule 48 ((List.range 16).map (blockWord blk)).reverse).reverse
  let u := (List.zipWith (· + ·) shaK w).foldl shaRound v
  (v.1.plus u.1, v.2.plus u.2)

/-- The message with its padding: a one bit, zeros, and its length in bits. -/
def padded (m : List Byte) : List Byte :=
  m ++ [0x80] ++ List.replicate ((119 - m.length % 64) % 64) 0 ++ (toBytes 8 (8 * m.length)).reverse

/-- The digest's eight words: of the square roots of the 8 primes under 20, through every block. -/
def shaWords (m : List Byte) : List W32 :=
  let p := padded m
  let h := rootWords 2 20
  let start : Quad × Quad := (⟨h.getD 0 0, h.getD 1 0, h.getD 2 0, h.getD 3 0⟩, ⟨h.getD 4 0, h.getD 5 0, h.getD 6 0, h.getD 7 0⟩)
  let v := (List.range (p.length / 64)).foldl (fun v i => shaBlock v ((p.drop (64 * i)).take 64)) start
  v.1.words ++ v.2.words

/-- The digest as a number, its first word highest (what a signature is made on). -/
def digestNum (m : List Byte) : Nat := (shaWords m).foldl (fun a w => a * 2 ^ 32 + w.toNat) 0

/-- The digest of a run of bytes as bytes in memory, its first byte lowest (spec R6, R350). -/
def sha256 (m : List Byte) : BitVec 256 := BitVec.ofNat 256 (ofBytes (toBytes 32 (digestNum m)).reverse)

end Sys2Proof.Machine
end

