-- ==== Sys2Proof/Machine/Ecdsa.lean ====
section
/-! DEFINITION. ECDSA over P-256, which spec R1 names for the signatures of patch sets and reports (spec R348, R350; log entry 15). The curve
is y² = x³ − 3x + b over the integers modulo `P256.p`; its points are counted by the prime `P256.n`. -/

namespace Sys2Proof.Machine

/-- A point in Jacobian coordinates, (x / z², y / z³); the neutral point has z = 0. -/
structure Pt where
  x : Nat
  y : Nat
  z : Nat
  deriving DecidableEq, Repr

/-- The field's prime. -/
def P256.p : Nat := 2 ^ 256 - 2 ^ 224 + 2 ^ 192 + 2 ^ 96 - 1

/-- The count of the curve's points. -/
def P256.n : Nat := 0xffffffff00000000ffffffffffffffffbce6faada7179e84f3b9cac2fc632551

/-- The constant term of the curve. -/
def P256.b : Nat := 0x5ac635d8aa3a93e7b3ebbd55769886bc651d06b0cc53b0f63bce3c3e27d2604b

/-- The base point. -/
def P256.base : Pt :=
  { x := 0x6b17d1f2e12c4247f8bce6e563a440f277037d812deb33a0f4a13945d898c296
    y := 0x4fe342e2fe1a7f9b8ee7eb4a7c0f9e162bce33576b315ececbb6406837bf51f5
    z := 1 }

/-- The neutral point. -/
def Pt.zero : Pt := { x := 1, y := 1, z := 0 }

/-- The difference in the field, of numbers below its prime. -/
def P256.sub (a b : Nat) : Nat := (a + P256.p - b) % P256.p

/-- A power modulo `m`, for an exponent of at most `bits` bits, from its top bit down. -/
def powMod (m a e bits : Nat) : Nat :=
  (List.range bits).foldr (fun i r => r * r % m * (if e.testBit i then a else 1) % m) (1 % m)

/-- The inverse modulo a prime of 256 bits. -/
def invMod (m a : Nat) : Nat := powMod m a (m - 2) 256

/-- A point doubled. -/
def Pt.twice (q : Pt) : Pt :=
  if q.z = 0 || q.y = 0 then Pt.zero
  else
    let zz := q.z * q.z % P256.p
    let yy := q.y * q.y % P256.p
    let m := 3 * P256.sub q.x zz * (q.x + zz) % P256.p
    let v := 4 * q.x * yy % P256.p
    let x := P256.sub (m * m % P256.p) (2 * v % P256.p)
    { x := x, y := P256.sub (m * P256.sub v x % P256.p) (8 * yy * yy % P256.p), z := 2 * q.y * q.z % P256.p }

/-- The sum of two points. -/
def Pt.plus (q r : Pt) : Pt :=
  if q.z = 0 then r
  else if r.z = 0 then q
  else
    let qq := q.z * q.z % P256.p
    let rr := r.z * r.z % P256.p
    let u := q.x * rr % P256.p
    let w := q.y * rr * r.z % P256.p
    let h := P256.sub (r.x * qq % P256.p) u
    let d := P256.sub (r.y * qq * q.z % P256.p) w
    if h = 0 then (if d = 0 then q.twice else Pt.zero)
    else
      let hh := h * h % P256.p
      let v := u * hh % P256.p
      let x := P256.sub (P256.sub (d * d % P256.p) (h * hh % P256.p)) (2 * v % P256.p)
      { x := x, y := P256.sub (d * P256.sub v x % P256.p) (w * h * hh % P256.p), z := h * q.z * r.z % P256.p }

/-- A multiple of a point, by a number of at most 256 bits. -/
def Pt.times (q : Pt) (k : Nat) : Pt :=
  (List.range 256).foldr (fun i r => if k.testBit i then r.twice.plus q else r.twice) Pt.zero

/-- The x coordinate of a point that is not neutral. -/
def Pt.affineX (q : Pt) : Nat := q.x * invMod P256.p (q.z * q.z % P256.p) % P256.p

/-- A public key: the coordinates of a point of the curve. -/
structure Key where
  x : Nat
  y : Nat
  deriving DecidableEq, Repr

/-- The coordinates are those of a point of the curve. -/
def Key.onCurve (k : Key) : Bool :=
  decide (k.x < P256.p) && decide (k.y < P256.p) && k.y * k.y % P256.p = (k.x * k.x * k.x + (P256.p - 3) * k.x + P256.b) % P256.p

/-- The signature (r, s) verifies under a key for a digest. -/
def Key.verifies (k : Key) (digest r s : Nat) : Bool :=
  let w := invMod P256.n s
  let q := (P256.base.times (digest * w % P256.n)).plus (({ x := k.x, y := k.y, z := 1 } : Pt).times (r * w % P256.n))
  k.onCurve && decide (0 < r) && decide (r < P256.n) && decide (0 < s) && decide (s < P256.n) && decide (q.z ≠ 0)
    && q.affineX % P256.n = r

/-- The signature of a digest under a private key, with the number drawn for it. -/
def signWith (priv k digest : Nat) : Nat × Nat :=
  let r := (P256.base.times k).affineX % P256.n
  (r, invMod P256.n k * (digest + r * priv) % P256.n)

end Sys2Proof.Machine
end

