-- ==== Sys2Proof/Config.lean ====
section
/-! DEFINITION. Config: what the part fixes once, and the free values: constants without a body, so that nothing can
evaluate them (log entries 10 to 18, 104). -/

namespace Sys2Proof.Config

/-- The value an early read of bytes still in flight returns, window bytes made resident by `ENTER`, overlapping engine
bytes: one for each number drawn (spec R4, R40, R53, R224, R248; log entry 10). -/
opaque freeVec : Nat → BitVec 2048

/-- A choice the spec leaves open between two outcomes, such as whether a line of a failed command was written
(spec R224; log entry 12). -/
opaque freeBool : Nat → Nat → Bool

/-- Whether a translation cache still gives what it holds for a PASID and a VA after the tables changed (spec R181; log entry 18). -/
opaque stale : Nat → Nat → Nat → Bool

/-- The fixed function of an approximation form: the code it delivers for an operation, a type and an input, held to the
bound of R159 by `approxPick` (log entry 13). -/
opaque approx : Nat → Nat → Nat → Nat

/-- The control store of Mandrel: a jump or another word at each of its 4,096 addresses (spec R348; log entry 15). -/
opaque rom : Nat → W32

/-- The bytes of the configuration that a report hashes (spec R350; log entry 15). -/
opaque configBytes : List Nat → List Byte

/-- The PASID under which Chuck writes the context store (spec R134; log entry 17). -/
opaque ctxPasid : Nat

/-- The place in the context store of the entry that a strand holds (spec R134; log entry 17). -/
opaque ctxPlace : Nat → Nat

/-- Where a frame's own place lies: 16 times its stack plus its die (spec R331; log entry 104). -/
opaque layout : Nat → Nat

/-- The key whose hash is fused, by the coordinates of its point, which patch sets are signed under (spec R348; log entry 15). -/
opaque patchKey : Nat × Nat

/-- The private half of the device attestation key (spec R350; log entry 15). -/
opaque deviceKey : Nat

end Sys2Proof.Config
end

