-- ==== Sys2Proof/Machine/State.lean ====
section
/-! DEFINITION. State: every piece of state spec/ gives the machine, as plain data, and the state after reset.
INVENTORY.md lists each piece with its rule. -/

namespace Sys2Proof.Machine

/-- Why a step ends the run with a fault. -/
inductive Fault where
  /-- A physical address at or past the 512 GiB of the eight stacks (spec R1, R182): raised by a host write that names one.
  Safe: the spec gives no storage there. -/
  | outsideMemory (pa : Nat)
  deriving DecidableEq, Repr

/-- Why a step refuses an instruction. -/
inductive Refusal where
  /-- The instruction has no meaning in this model yet: raised by an arm of `exec`. Safe: no effect is claimed. -/
  | notModelled (mnemonic : String)
  deriving DecidableEq, Repr

/-! ### Traps and stops -/

/-- What a trap reports (spec R125): class, code, va, aux words, the offending field (0xFF and 0 for none), the offending
word and its index (0xFF for none). -/
structure TrapInfo where
  cls : Nat
  code : Nat
  va : W64 := 0
  aux0 : W64 := 0
  aux1 : W64 := 0
  flo : Nat := 0xFF
  fw : Nat := 0
  wi : Nat := 0xFF
  word : W32 := 0
  deriving DecidableEq, Repr

/-- Where a bundle stands: its packet and word, and the position that follows it in sequence (spec R125). -/
structure Pos where
  bpc : W32 := 0
  bwi : Nat := 0
  npc : W32 := 0
  nwi : Nat := 0
  deriving DecidableEq, Repr

/-- Why a bundle has no effect now. -/
inductive Stop where
  /-- a precise trap -/
  | trap (t : TrapInfo)
  /-- the bundle is not ready: an interlock, a full context, a freeze (spec R33) -/
  | stall
  /-- a page-in fault: kind `PAGE_IN` or `TABLE` at a VA (spec R130, R186) -/
  | pageIn (va : W64) (code : Nat)
  /-- a wait not satisfied: wkind, wctx, wval, the suspension reason (spec R32) -/
  | wait (kind ctx : Nat) (val : W64) (reason : Nat)
  /-- a `WAITF` whose token's accesses have not all performed (spec R210) -/
  | waitf (tok : Nat)
  /-- no entry of the continuation pool is there for a child of base priority `prio` (spec R27, R135) -/
  | poolFull (prio : Nat)
  /-- accesses that earlier words of the same bundle entered must perform before this word reads (spec R118, R195, R353) -/
  | own
  deriving DecidableEq, Repr

/-- What a strand does once its results have landed (spec R56). -/
inductive StopReq where
  /-- delivers a trap taken on a bundle (spec R124, R127) -/
  | trap (t : TrapInfo) (p : Pos)
  /-- suspends with a reason, with a full save or not (spec R20, R132) -/
  | suspend (reason : Nat) (full : Bool)
  /-- enters the next stage pool (spec R28) -/
  | stage
  deriving DecidableEq, Repr

/-! ### Register locations and the queues -/

/-- A place a result goes to: bytes of one 256-byte unit of the allotment, or an entry of the operand file (spec R36, R47). -/
inductive Loc where
  /-- `len` bytes at `off` of allotment unit `unit` -/
  | reg (unit off len : Nat)
  /-- entry `i` of the operand file: `len` bytes written, the rest zeroed -/
  | ofile (i len : Nat)
  deriving DecidableEq, Repr

/-- The destination of a queued access: the place, and the bytes a later word of the same bundle has taken over (spec R83). -/
structure RDst where
  loc : Loc
  skip : BitVec 256 := 0
  deriving DecidableEq, Repr

/-- A V result in flight: its place (none for `lv`), and the core cycle by which it lands (spec R53). -/
structure VPend where
  loc : Option Loc
  due : Nat
  deriving DecidableEq, Repr

/-- The queue of an access (spec R195). -/
inductive QKind where
  | load
  | store
  | both
  deriving DecidableEq, Repr

/-- A run of bytes of an access: at offset `off` of its value, `len` bytes at physical address `pa`, which VA `va` named. -/
structure Seg where
  off : Nat
  pa : Nat
  len : Nat
  va : Nat := 0
  deriving DecidableEq, Repr

/-- A run of bytes of a store to a remote VA (spec R190). -/
structure RSeg where
  off : Nat
  va : W64
  len : Nat
  deriving DecidableEq, Repr

/-- What an access does when it performs. -/
inductive Act where
  /-- reads local bytes; `w` is the width of a scalar in bits, 0 for a 256-byte result -/
  | load (segs : List Seg) (signed : Bool) (w : Nat)
  /-- writes local bytes and sends remote ones -/
  | store (segs : List Seg) (rem : List RSeg) (data : Vec)
  /-- reads the scratchpad -/
  | sload (off len : Nat) (signed : Bool) (w : Nat)
  /-- writes the scratchpad -/
  | sstore (off len : Nat) (data : Vec)
  /-- an atomic at a local physical address: operation, type, operands (spec R213) -/
  | atom (op typ : Nat) (seg : Seg) (b c : Nat)
  /-- an atomic at a remote VA -/
  | ratom (op typ : Nat) (va : W64) (b c : Nat)
  /-- a bank-side command at a local line: operation, type, SAT, data, expected and new elements (spec R215) -/
  | bank (op typ : Nat) (sat : Bool) (seg : Seg) (v x y : Line)
  /-- a bank-side command at a remote line -/
  | rbank (op typ : Nat) (sat : Bool) (va : W64) (v x y : Line)
  /-- nothing but a place in the queues: `QMARK`, `FENCE`, `TOUCH`, `WAITF`, `TLWAIT` and the like -/
  | mark
  /-- clears valid bits of the words `[a, a + b)` (spec R147) -/
  | spalloc (a b : Nat)
  /-- frees the words `[a, a + b)` (spec R147) -/
  | spfree (a b : Nat)
  /-- holds (`mode` true for DROP) or frees the devices `a` to `a + b - 1` for sends (spec R277) -/
  | hold (a b : Nat) (mode : Option Bool)
  /-- the point from which an engine command may start (spec R225, R252, R261) -/
  | cmd
  /-- the release of `TRIG` (spec R29) -/
  | trig
  /-- the release of `EXIT` (spec R29) -/
  | exit
  deriving DecidableEq, Repr

/-- A queued access of a strand; `rel` marks a release, and an acquire in the load queue (spec R207); `slot` is the parcel slot whose
handle it passed with (spec R282, R291). -/
structure Access where
  id : Nat
  q : QKind
  act : Act
  dst : Option RDst := none
  toLm : Bool := false
  toLx : Bool := false
  scope : Nat := 3
  rel : Bool := false
  pos : Pos := {}
  wi : Nat := 0
  word : W32 := 0
  slot : Option Nat := none
  deriving DecidableEq, Repr

/-- A fence token (spec R209, R212). -/
structure Token where
  used : Bool := false
  scope : Nat := 0
  ids : List Nat := []
  count : Nat := 0
  home : Nat := 0
  cause : Nat := 0
  mcode : Nat := 0
  deriving DecidableEq, Repr

/-- A lease on a page: its VA and physical base, the log of its size, and whether it covers writes (spec R187). -/
structure Lease where
  va : Nat
  pa : Nat
  lg : Nat
  write : Bool
  deriving DecidableEq, Repr

/-- A scratchpad word: its bytes, its valid bit, and whether it is freed (spec R147, R191). -/
structure SWord where
  data : W64 := 0
  valid : Bool := false
  freed : Bool := false
  deriving DecidableEq, Repr

/-- The state of a `LOOPN` nest (spec R115, R117). -/
structure LoopSt where
  act : Bool := false
  pend : Bool := false
  n : BitVec 8 := 0
  idx : List Nat := [0, 0, 0, 0, 0, 0]
  desc : Line := 0
  base0 : W64 := 0
  base1 : W64 := 0
  first : W32 := 0
  last : W32 := 0
  deriving DecidableEq, Repr

/-- An engine trap that waits for a delivery point (spec R129): the context, the sequence number and the trap. -/
structure ETrap where
  ctx : Nat
  seq : Nat
  info : TrapInfo
  deriving DecidableEq, Repr

/-! ### Strands -/

/-- The identity and record fields of a strand (spec R16 to R18). -/
structure Ident where
  launch : BitVec 16 := 0
  gang : BitVec 20 := 0
  idx : BitVec 6 := 0
  stage : BitVec 8 := 0
  nstr : BitVec 7 := 1
  ngangs : BitVec 21 := 0
  cls : Bool := false
  bprio : BitVec 3 := 0
  eprio : BitVec 3 := 0
  aged : Bool := false
  spawned : Bool := false
  triggered : Bool := false
  trigDone : Bool := false
  handler : Bool := false
  standIn : Bool := false
  full : Bool := false
  state : Nat := 0
  reason : Nat := 0
  wkind : Nat := 0
  wctx : Nat := 0
  wval : W64 := 0
  live : W32 := 0
  pasid : BitVec 20 := 0
  part : Nat := 0
  deriving DecidableEq, Repr

/-- Where a strand stands: the cluster of its gang, its core and slot, whether it is on the CIC, and whether it holds the
slot now (spec R17, R18, R31). -/
structure Place where
  cluster : BitVec 5 := 0
  core : BitVec 3 := 0
  cic : Bool := false
  slot : BitVec 3 := 0
  resident : Bool := false
  deriving DecidableEq, Repr

/-- What a strand takes from its launch (spec R21, R22, R36). -/
structure Frames where
  wsize : Nat := 4
  spad : Nat := 0
  fsize : Nat := 4
  code : W64 := 0
  handler : W64 := 0
  save : W64 := 0
  spill : W64 := 0
  spstride : Nat := 0
  svstride : Nat := 0
  deriving DecidableEq, Repr

/-- The window of a strand, in 256-byte units (spec R36 to R44). -/
structure Win where
  base : Nat := 0
  f : Nat := 4
  lo : Nat := 0
  hi : Nat := 4
  ep : Bool := true
  lost : Bool := false
  lostlo : Nat := 0
  losthi : Nat := 0
  lostCode : Nat := 0
  deriving DecidableEq, Repr

/-- The view registers (spec R45). -/
structure Views where
  s : BitVec 18 := 0
  v : BitVec 18 := 0
  t : BitVec 18 := 0
  a : BitVec 18 := 0
  deriving DecidableEq, Repr

/-- The rotating region, in units, and its dead units (spec R49, R50). -/
structure Rot where
  base : Nat := 0
  size : Nat := 0
  depth : Nat := 0
  pos : Nat := 0
  dead : List Nat := []
  deriving DecidableEq, Repr

/-- The operand file and the last-result file; `lmWait` and `lxWait` are the accesses whose results `lm`
and `lx` await (spec R47, R48). -/
structure Files where
  o : SMap Vec := []
  ls : W64 := 0
  lx : W64 := 0
  lv : Vec := 0
  lm : Vec := 0
  lmWait : Option Nat := none
  lxWait : Option Nat := none
  deriving DecidableEq, Repr

/-- The floating-point control registers (spec R69). -/
structure FpRegs where
  rm : BitVec 3 := 0
  flags : BitVec 6 := 0
  trapen : BitVec 6 := 0
  deriving DecidableEq, Repr

/-- The trap record before the first trap: no field named (spec R125). -/
def recReset : BitVec 512 := BitVec.ofNat 512 (0xFF * 2 ^ 264 + 0xFF * 2 ^ 280)

/-- Trap state (spec R125, R126, R127, R129). -/
structure TrapSt where
  trec : BitVec 512 := recReset
  ret : BitVec 34 := 0
  shadowEp : Bool := false
  shadowLoop : LoopSt := {}
  pending : List ETrap := []
  deriving DecidableEq, Repr

/-- The queues, fence tokens and leases of a strand, and the token its `WAITF` waits on (spec R187, R195, R209, R210). -/
structure Queues where
  accs : List Access := []
  next : Nat := 1
  toks : SMap Token := []
  waitf : Option Nat := none
  leases : List Lease := []
  deriving DecidableEq, Repr

/-- What scheduling holds of a strand (spec R32, R33, R136, R145); `passed` says that it was ready and did not issue in the last cycle of its
core; `faultVa` and `faultKey` say which entry a page-in fault met: its
VA, and its code plus 16 times its level. -/
structure Sched where
  age : Nat := 0
  passed : Bool := false
  last : Nat := 0
  waitDone : Bool := false
  waitspin : W32 := 4096
  idle : Bool := false
  idleOn : List (Nat × Nat) := []
  preempt : Bool := false
  held : Bool := false
  forced : Bool := false
  stop : Option StopReq := none
  gate : Option (Nat × Nat) := none
  phA : W64 := 0xFFFFFFFF
  phB : W64 := 0
  phC : W64 := 0
  saving : Bool := false
  grant : Bool := false
  faultVa : W64 := 0
  faultKey : Nat := 0
  deriving DecidableEq, Repr

/-- A strand (spec R16 to R22, R36 to R56); `scrBad` lists the scratchpad lines that fail their check (spec R193), `pkt` is the packet fetched and still being issued, `fetched` the memory its
fetches may still hold (spec R103). -/
structure Strand where
  id : Ident := {}
  place : Place := {}
  fr : Frames := {}
  pc : W32 := 0
  wi : Nat := 0
  cseg : Nat := 0
  win : Win := {}
  regs : SMap Vec := []
  views : Views := {}
  rot : Rot := {}
  files : Files := {}
  fp : FpRegs := {}
  vpend : List VPend := []
  loop : LoopSt := {}
  trap : TrapSt := {}
  scr : SMap SWord := []
  scrBad : List Nat := []
  q : Queues := {}
  sch : Sched := {}
  shNest : Line := 0
  shA : BitVec 256 := 0
  shB : BitVec 256 := 0
  bind : W64 := 0
  pkt : Option (BitVec 96) := none
  fetched : List Host.Cell := []
  deriving DecidableEq, Repr

/-- A reuse latch: the strand, the unit and bytes, and their value (spec R52). -/
structure Latch where
  sid : Nat
  loc : Loc
  val : Vec
  deriving DecidableEq, Repr

/-- A core: its cycle count and the reuse latches of its four ports (spec R52, R53). -/
structure CoreSt where
  cycle : Nat := 0
  latches : SMap (Option Latch) := []
  deriving DecidableEq, Repr

/-- The bundle being issued: its position, the word of the instruction at hand, the target of a taken transfer and its word, the strand as
it stood when the bundle issued (later words read it; spec R83), why the bundle stopped, if it did, and the page-table bits its walks have set:
the entry's address and its new value (spec R184). -/
structure Issue where
  pos : Pos := {}
  wi : Nat := 0
  word : W32 := 0
  tgt : Option W32 := none
  twi : Nat := 0
  snap : Option Strand := none
  abort : Option Stop := none
  walked : List (Nat × Nat) := []
  deriving DecidableEq, Repr

/-! ### Chuck and the partitions -/

/-- The kind of a node (spec R24). -/
inductive NKind where
  | launch
  | copy
  | cube
  | refine
  | signal
  | wait
  deriving DecidableEq, Repr

/-- The state of a node (spec R25). -/
inductive NState where
  | free
  | created
  | ready
  | active
  | triggered
  | done
  deriving DecidableEq, Repr

/-- A node entry of Chuck (spec R24 to R30); `resv` counts the context-store entries held for its next gang (spec R135); `told` is the fault of a
WAIT node's read that system software was told of, as its code, 0 for none (spec R186, R188). -/
structure Node where
  kind : NKind := .launch
  st : NState := .free
  ctr : BitVec 16 := 0
  succ : List Nat := []
  lpb : BitVec 2048 := 0
  body : List W64 := []
  sub : Nat := 0
  pasid : BitVec 20 := 0
  part : Nat := 0
  order : Nat := 0
  mat : Nat := 0
  stuck : Nat := 0
  stuckU : Nat := 0
  queue : Nat := 0
  gangs : SMap Nat := []
  resv : Nat := 0
  cmds : List (Nat × Nat) := []
  told : Nat := 0
  deriving DecidableEq, Repr

/-- A stage pool: the launch, the stage, and its records in order of entry (spec R28). -/
structure Pool where
  launch : Nat
  stage : Nat
  sids : List Nat
  deriving DecidableEq, Repr

/-- A unit ready for placement that holds records already created (spec R31); `bound` units resume on their own cluster. -/
structure PUnit where
  sids : List Nat
  bound : Bool
  deriving DecidableEq, Repr

/-- A creation that waits for context-store entries (spec R135). -/
inductive Creation where
  /-- a handler strand with its record, and the strand whose place in a stage gang it takes (spec R128) -/
  | handler (st : Strand) (prio : Nat) (old : Option Nat)
  /-- a stage gang of a refinement context (spec R296) -/
  | stage (ctx prio : Nat)
  /-- the child of a suspended spawner (spec R27) -/
  | spawn (sid prio : Nat)
  /-- the next gang of a launch (spec R31) -/
  | gang (node prio : Nat)
  deriving DecidableEq, Repr

/-- Chuck (spec R24 to R35, R134 to R137); `reserved` lists the clusters kept (32 the CIC), each with the unit it is kept for: a node
(true), or the first record of a unit of records. -/
structure Chuck where
  nodes : SMap Node := []
  order : Nat := 0
  pools : List Pool := []
  ready : List PUnit := []
  reserved : List (Nat × Nat × Bool) := []
  waiting : List Creation := []
  starting : List Nat := []
  ptimeout : W32 := 1048576
  ctx : W64 := 0
  store : SMap (BitVec 131072) := []
  deriving DecidableEq, Repr

/-- A partition (spec R338) and the registers each partition has (spec R35, R191, R262, R277, R278, R332). -/
structure Part where
  st : Nat := 0
  halves : BitVec 64 := 0
  nodeLo : Nat := 0
  nodeN : Nat := 0
  cube : Bool := false
  fab : BitVec 64 := 0
  rlc : BitVec 16 := 0
  area : BitVec 64 := 0
  ual : BitVec 16 := 0
  spn : BitVec 8 := 0
  pcLo : Nat := 0
  pcN : Nat := 0
  evq : Option Nat := none
  spMode : Bool := false
  spLog : W64 := 0
  fbLog : W64 := 0
  fbLogva : W64 := 0
  resv : W32 := 262144
  gerr : W32 := 0
  hold : SMap (Option Bool) := []
  share : W64 := 0
  deficit : W64 := 0
  grew : Bool := false
  deriving DecidableEq, Repr

/-- A completion of a management request still to be written: its VA and value, PASID and partition, and what a handler packet
would name: the queue, the first 32 bytes of the packet, its offset (spec R343, R345). -/
structure Comp where
  va : W64
  code : Nat
  pasid : Nat
  part : Nat
  queue : Nat
  first : BitVec 256
  off : Nat
  deriving DecidableEq, Repr

/-! ### Memory -/

/-- A migration of a page (spec R189): PASID, VA, old and new frame (byte addresses), round, marked lines (line indices of
the old frame), and whether the freeze has begun. -/
structure Mig where
  pasid : Nat
  va : Nat
  old : Nat
  new : Nat
  round : Nat
  marked : List Nat
  frozen : Bool
  deriving DecidableEq, Repr

/-- A translation in the cache of an MTU (spec R181): PASID, page VA and physical base, the log of its size, and what its entry permits. -/
structure Cached where
  pasid : Nat
  va : Nat
  pa : Nat
  lg : Nat
  write : Bool
  exec : Bool
  deriving DecidableEq, Repr

/-- The memory of the device (spec R179 to R194). Bytes not listed read as zero (log entry 5). `tlb` is what the MTUs cache, `moved` lists the table entries that name a
node whose frame has migrated: where the entry stands (2^48 plus the PASID for a root), the old frame and the new one (spec R188); `lost` the
lines of walker writes discarded in this step, which are still to be reported (spec R193); `hits` the accesses to each frame in this share window
(spec R334; log entry 104). -/
structure Mem where
  cells : List Host.Cell := []
  bad : List Nat := []
  roots : SMap W64 := []
  migs : List Mig := []
  scrubs : List (Nat × Comp) := []
  locked : List Nat := []
  devid : BitVec 11 := 0
  moved : List (Nat × Nat × Nat) := []
  lost : List Nat := []
  tlb : List Cached := []
  hits : SMap Nat := []
  deriving DecidableEq, Repr

/-! ### Engine contexts and the copy engines -/

/-- An engine context (spec R217, R220): issue count, counter, error word, and the numbers above the counter already
complete. -/
structure Ctx where
  issued : W64 := 0
  counter : W64 := 0
  err : W64 := 0
  done : List Nat := []
  deriving DecidableEq, Repr

/-- Who issued a command: a strand, or a node (spec R181, R342). -/
inductive Issuer where
  | strand (sid : Nat) (id : Ident) (fr : Frames)
  | node (n : Nat)
  deriving DecidableEq, Repr

/-- A copy command not complete (spec R223): its context and number, issuer, the queue entry it starts after, the nest as
taken, its operands, the allotment units its window offsets meant at issue, whether it waits
for a page, whether its writes were made and only remote ones are still awaited, and its failure so far. -/
structure CopyCmd where
  ctx : Nat
  seq : Nat
  iss : Issuer
  gate : Option Nat
  pasid : Nat
  nest : Line
  src : W64
  dst : W64
  ctl : W64
  units : List Nat
  stalled : Bool
  sent : Bool := false
  fail : Option (Nat × Nat) := none
  deriving DecidableEq, Repr

/-! ### The fabric engine -/

/-- Who sent a transaction: an access of a strand, or a command of a fabric context (spec R259, R262). -/
inductive Org where
  | access (sid id : Nat)
  | cmd (ctx seq : Nat)
  deriving DecidableEq, Repr

/-- Where a packet stands: held by a hold set in the buffer, held with its issuer while the buffer is full, waiting for a link, or placed
on link `x` (24: this device) (spec R277, R323). -/
inductive PSt where
  | held
  | full
  | waits
  | placed (x : Nat)
  deriving DecidableEq, Repr

/-- A packet not answered yet, with its place in the order of all sends. -/
structure OutPkt where
  txn : Txn
  st : PSt
  ord : Nat := 0
  deriving DecidableEq, Repr

/-- A tag in use: its origin, the partition, its packets not answered yet in the order they were sent, and the home, cause and code
of the first that was not performed (spec R212, R310). -/
structure OutTxn where
  tag : Nat
  org : Org
  part : Nat
  pkts : List OutPkt
  failed : Option (Nat × Nat × Nat) := none
  deriving DecidableEq, Repr

/-- The kind of a fabric command, with its operands (spec R264 to R276, R287). -/
inductive FabKind where
  | store (va : W64) (typ : Nat) (data bar : W64)
  | lines (src dst bar : W64) (n : Nat)
  | atom (fn typ : Nat) (va b : W64) (reply : Option W64) (comb : Bool)
  | req (src target : W64)
  | coll (desc : Line) (k : Nat)
  | drain (marks : List (Nat × Nat))
  | post (h : BitVec 32) (base : W64) (size : Nat) (target : W64) (stat : Option W64)
  deriving DecidableEq, Repr

/-- A fabric command not complete: context and number, issuer and its launch, the queue entry it starts after, its kind, its tag, its phase
(0 not started, 1 sent, 2 commit sent, 3 abort sent, 4 writing its word, 5 word sent to a remote VA), lines sent, lines that left the device,
failure and conditions so far, the result of a `POST`, the old value of an atomic, and whether it waits for a page of its source. -/
structure FabCmd where
  ctx : Nat
  seq : Nat
  sid : Nat
  gate : Nat
  part : Nat
  pasid : Nat
  node : Nat
  rel : Bool
  kind : FabKind
  tag : Nat := 0
  st : Nat := 0
  sent : Nat := 0
  left : Nat := 0
  fail : Option (Nat × Nat) := none
  flags : Nat := 0
  result : Nat := 0
  old : Option W64 := none
  stalled : Bool := false
  deriving DecidableEq, Repr

/-- A request area: its base, the records it accepts, and the issue count when that was last written (spec R272). -/
structure Area where
  base : W64 := 0
  cap : W32 := 0
  origin : W32 := 0
  deriving DecidableEq, Repr

/-- The most recent `FCOLL` of a context: its descriptor, its ordinal on the group, the lines received, and whether it runs
(spec R274, R275). -/
structure Coll where
  desc : Line := 0
  k : Nat := 0
  got : List Nat := []
  busy : Bool := false
  deriving DecidableEq, Repr

/-- The fabric engine (spec R259 to R277, R310, R361): commands, transactions in flight, answers that wait for a link,
transactions this device sent to itself, received ones that a frozen page stalls, request areas, barrier counts by (src, ctx, tag), collectives by context, members of
the groups with the switch port each enters on, the ordinals of the groups, the next tag and the next place in the order of sends. -/
structure Fab where
  cmds : List FabCmd := []
  outs : List OutTxn := []
  answers : List Txn := []
  loop : List Txn := []
  stalled : List Txn := []
  areas : SMap Area := []
  bars : List (Nat × Nat × Nat × Nat) := []
  colls : SMap Coll := []
  groups : SMap (List (Nat × Nat)) := []
  ords : SMap Nat := []
  nextTag : BitVec 32 := 0
  nextOrd : Nat := 0
  adrop : W64 := 0
  deriving DecidableEq, Repr

/-! ### Links -/

/-- A receive ring: heater code, lock loop, resonance, light lost, photocurrent and its value at lock (spec R314, R316). -/
structure Ring where
  dac : BitVec 16 := 0x8000
  lock : Bool := true
  locked : Bool := false
  lol : Bool := false
  pd : BitVec 16 := 0
  pd0 : BitVec 16 := 0
  deriving DecidableEq, Repr

/-- A laser (spec R315). -/
structure Laser where
  en : Bool := true
  fail : Bool := false
  ok : Bool := false
  mon : BitVec 16 := 0
  deriving DecidableEq, Repr

/-- A flit in a replay buffer: its number, its bytes, and the number of the packet it belongs to, where that is a send (spec R313). -/
structure Replay where
  seq : BitVec 16
  flit : BitVec 640
  send : Option Nat
  deriving DecidableEq, Repr

/-- A Spindle port (spec R311 to R322): state, whether its RELOCK began in DARK, software's dis mask, the mask its transmitter follows, the mask the far
receiver carried to it, the wavelengths it took out for a failed laser before the far end lost them, the mask its receiver follows, partner, the partner of
its last UP, counters, the last number sent, the replay buffer and how many of its first flits an ack covers already (they stay
while their packet is open), the last number accepted and the open packet, replays with no progress, link-state events and
markers not complete, marker acks that wait for room, and sends discarded since the last UP. -/
structure Spn where
  st : Nat := 0
  dark : Bool := false
  dis : BitVec 16 := 0
  tx : BitVec 16 := 0
  far : BitVec 16 := 0
  gone : BitVec 16 := 0
  rxm : BitVec 16 := 0
  partner : BitVec 11 := 0
  pkind : BitVec 2 := 0
  former : Option (BitVec 11) := none
  replays : Nat := 0
  widths : Nat := 0
  seq : BitVec 16 := 0
  buf : List Replay := []
  acked : Nat := 0
  ack : BitVec 16 := 0
  rx : List CLine := []
  tries : Nat := 0
  events : List Nat := []
  marks : List Nat := []
  sentMarks : List Nat := []
  macks : Nat := 0
  lost : Nat := 0
  deriving DecidableEq, Repr

/-- A UALink port (spec R308, R309): state, partner, and markers not sent and not acknowledged. -/
structure Ual where
  st : Nat := 0
  partner : BitVec 11 := 0
  pkind : BitVec 2 := 0
  marks : List Nat := []
  sentMarks : List Nat := []
  deriving DecidableEq, Repr

/-- What leaves the device on a link (log entry 24): a Valbeoft packet on a UALink port, a UALink request or response that carries a
transaction where the partner has no extensions, an unsupported-request completion, and a flit with what its slots put on the 16 wavelengths, wavelength
0 in the low byte (spec R308, R309, R312). -/
inductive Wire where
  | packet (port : Nat) (t : Txn)
  | request (port : Nat) (t : Txn)
  | unsupported (port tag : Nat)
  | flit (port : Nat) (f : BitVec 640) (slots : List (BitVec 128))
  deriving DecidableEq, Repr

/-- The links (spec R307 to R325): ports, rings, lasers, the routing table, and what left on them. -/
structure Links where
  ual : SMap Ual := []
  spn : SMap Spn := []
  rings : SMap Ring := []
  lasers : SMap Laser := []
  routes : SMap W32 := []
  wire : List Wire := []
  deriving DecidableEq, Repr

/-! ### Parcels -/

/-- A slot of the parcel table (spec R278 to R280): state, generation, PASID, base and size of the extent or region, the
handle of the last arrival, the arm in progress with the strand that armed it and that strand's launch, what each arm installed, and the sender whose lines arrive with
the count that have performed. -/
structure Slot where
  st : Nat := 0
  gen : BitVec 16 := 1
  pasid : Nat := 0
  base : W64 := 0
  size : Nat := 0
  last : BitVec 32 := 0
  arm : Nat := 0
  armer : Option Nat := none
  armNode : Nat := 0
  part : Nat := 0
  handles : SMap (BitVec 32) := []
  peer : Option (Nat × Nat) := none
  lines : Nat := 0
  deriving DecidableEq, Repr

/-! ### Words written by nodes and engines -/

/-- What follows a word write that stalled on a page-in (spec R29, R30, R360). -/
inductive AfterWord where
  /-- nothing -/
  | nothing
  /-- a SIGNAL node becomes DONE -/
  | signal (node : Nat)
  /-- a launch node becomes DONE -/
  | launch (node : Nat)
  /-- a fabric command completes -/
  | cmd (ctx seq : Nat) (fail : Option (Nat × Nat))
  /-- a status word of a refinement block -/
  | status (ctx : Nat)
  deriving DecidableEq, Repr

/-- A word write stalled on a page-in: partition, PASID, VA, width in bytes, value, whether it adds, what follows. -/
structure WordWr where
  part : Nat
  pasid : Nat
  va : Nat
  len : Nat
  val : Nat
  add : Bool
  after : AfterWord
  deriving DecidableEq, Repr

/-! ### The cube -/

/-- The kind of a cube command, with what each needs beyond the common fields (spec R244 to R248). -/
inductive CubeKind where
  /-- `CUBE.MM` or `CPLANE`: the layers, redundant mode, width in bits, m, n, k -/
  | mm (layers : List Nat) (plane red : Bool) (w m n k : Nat)
  /-- `CZERO`, which waits for its place in the slot's order -/
  | zero
  /-- `CFILL`: source VA, face offset, bytes, face (true for B), layer -/
  | fill (va off len : Nat) (faceB : Bool) (layer : Nat)
  /-- `CDRAIN`: base, row stride, space, CLR, m, n, the allotment units of window offsets -/
  | drain (base stride space : Nat) (clr : Bool) (m n : Nat) (units : List Nat)
  deriving DecidableEq, Repr

/-- A cube command not complete, with its snapshot and its progress (spec R236, R250, R255). -/
structure CubeCmd where
  ctx : Nat
  seq : Nat
  iss : Issuer
  gate : Option Nat
  pasid : Nat
  kind : CubeKind
  slot : Nat := 0
  nest : Line := 0
  dA : BitVec 256 := 0
  dB : BitVec 256 := 0
  tables : SMap (BitVec 256) := []
  st : Nat := 1
  code : Nat := 0
  mcode : Nat := 0
  operand : Nat := 0
  row : Nat := 0
  iter : Nat := 0
  pass : Nat := 0
  step : Nat := 0
  staged : List Nat := []
  flags : Nat := 0
  fva : Nat := 0
  sent : Bool := false
  fail : Option (Nat × Nat) := none
  deriving DecidableEq, Repr

/-- The cube (spec R228 to R258): layer registers, modes, slots, faces, tables, commands in issue order, and Steady. -/
structure Cube where
  layers : W64 := 8
  map : W64 := 0x76543210
  mode : W64 := 0
  slots : SMap Nat := []
  faces : SMap Line := []
  faceBad : List Nat := []
  active : SMap (BitVec 256) := []
  shadow : SMap (BitVec 256) := []
  cmds : List CubeCmd := []
  step : W64 := 0
  temp : W64 := 0
  chg : W64 := 0
  thr : SMap W64 := []
  cfg : W64 := 0x125F
  deriving DecidableEq, Repr

/-! ### The refinement loop controller -/

/-- A refinement block queued on a context (spec R295, R302): number, issuer, block VA, bytes 0 to 127 as taken, PASID,
partition, the launch its stage strands join with their frames and identity, and the queue entry it starts after. -/
structure RBlock where
  seq : Nat
  iss : Issuer
  va : W64
  blk : BitVec 1024
  pasid : Nat
  part : Nat
  launch : Nat
  stage : Nat
  fr : Frames
  cube : Bool
  gate : Option Nat
  deriving DecidableEq, Repr

/-- A context of the controller (spec R294 to R304). States as `RLSTAT` codes them. `after` says what follows UPDATE: 200 the exit `fin`,
100 and a rung an escalation to it, else the loop. -/
structure Rlc where
  queue : List RBlock := []
  st : Nat := 0
  rung : Nat := 0
  k : Nat := 0
  prev : Option W64 := none
  fl : BitVec 6 := 0
  wfl : BitVec 6 := 0
  sum : W64 := 0
  eta : W64 := 0
  etap : W64 := 0
  itr : List Nat := [0, 0, 0, 0]
  abort : Bool := false
  req : Option Nat := none
  after : Nat := 0
  fin : Nat := 0
  exit : Nat := 0
  trapped : Bool := false
  gang : List Nat := []
  norm : SMap W64 := []
  failed : Option (Nat × Nat) := none
  deriving DecidableEq, Repr

/-! ### Clocks, rails and the memory stack -/

/-- The rail and clock of a cluster (spec R327 to R330): slack target (ps), rail (mV), CAP and FLOOR, the limits of `cr.clk`,
stalls of the last window, the sequencer (0 idle, 1 VUP, 2 FSW, 3 VDOWN), whether the step in progress is an up-step and whether its
VUP met CAP, target and current codes. -/
structure Clk where
  slack : Nat := 30
  rail : Nat := 800
  cap : Bool := false
  floor : Bool := false
  thr : Nat := 128
  fmax : Nat := 16
  fmin : Nat := 4
  mstall : Nat := 0
  istall : Nat := 0
  seq : Nat := 0
  up : Bool := false
  met : Bool := false
  target : Nat := 12
  cur : Nat := 12
  deriving DecidableEq, Repr

/-- A memory stack (spec R331 to R334): last samples, hot dies, lines it could transfer, swaps done, error counts, the remap
table (a frame's place plus one, 0 for its own), and the swap in progress. -/
structure Stack where
  temps : List Nat := List.replicate 16 0
  hot : BitVec 16 := 0
  avail : Nat := 0
  swaps : Nat := 0
  err : W64 := 0
  remap : SMap Nat := []
  swap : Option (Nat × Nat) := none
  deriving DecidableEq, Repr

/-- Power and the memory stack (spec R326 to R334); `layout` lists the frames whose own place does not lie where `Config.layout` says, each with 16
times its stack plus its die (log entry 104). -/
structure Power where
  clks : SMap Clk := []
  hbm : SMap Stack := []
  layout : SMap Nat := []
  promote : Bool := true
  thr : BitVec 16 := 4096
  deriving DecidableEq, Repr

/-! ### Mandrel, the queues and what leaves the device -/

/-- A queue (spec R340): record, function, state, head and tail as counts of entries since it was enabled, whether its
partition or PASID is being torn down, whether its PASID's teardown is complete, whether the packet it began waits, and the VA of the page not resident that
a read for it met, and the completions that wait for their page. -/
structure Queue where
  qrec : BitVec 512 := 0
  fn : Nat := 0
  en : Bool := false
  err : Bool := false
  head : Nat := 0
  tail : Nat := 0
  stopped : Bool := false
  down : Bool := false
  waits : Bool := false
  held : Option Nat := none
  comps : List Comp := []
  deriving DecidableEq, Repr

/-- A handler packet or event (spec R343): the queue it goes to (none: it could not be enqueued), the 128 bytes. -/
structure HPkt where
  queue : Option Nat
  data : BitVec 1024
  deriving DecidableEq, Repr

/-- A patch set (spec R348, R349): its image bytes as one number, and their count. -/
structure PatchSet where
  len : Nat
  image : Nat
  deriving DecidableEq, Repr

/-- An attestation being signed (spec R350): report VA, completion, the first 192 bytes. -/
structure Attest where
  report : W64
  comp : Comp
  body : BitVec 1536
  deriving DecidableEq, Repr

/-- A request for the host translation that a queue's fetch lacks, under a PASID (spec R336, R347): whether it failed, so that a PRI page request stands
for it, whether its PASID is torn down, and whether the queue that made it is still there. -/
structure Ask where
  queue : Nat
  pasid : Nat
  pri : Bool := false
  late : Bool := false
  live : Bool := true
  deriving DecidableEq, Repr

/-- Mandrel (spec R336 to R350): queues, the partition of each VF, the PASIDs being torn down with their completions, the counts
of what was dropped, the patch sets, attestations, handler packets that left or wait, the queue served last by priority, host writes that a
busy frame stalls, the cache of host translations by PASID and 4 KiB host page, and the translation requests not answered; the 256 entries of the patch RAM and the words of the patch store (spec R348). -/
structure Mandrel where
  queues : SMap Queue := []
  vfmap : SMap (Option Nat) := []
  downs : List (Nat × Comp) := []
  late : W64 := 0
  active : Option PatchSet := none
  pending : Option PatchSet := none
  attests : List Attest := []
  out : List HPkt := []
  pend : List (Option Nat × Nat × BitVec 1024) := []
  rot : SMap Nat := []
  writes : List (Nat × List Byte) := []
  ats : List (Nat × Nat) := []
  asks : List Ask := []
  patches : SMap W32 := []
  patchStore : SMap W32 := []
  deriving DecidableEq, Repr

/-- The state of the machine. -/
structure State where
  agenda : List Instr
  cur : Nat
  turn : Nat
  issue : Issue
  free : Nat
  strands : SMap Strand
  nextSid : Nat
  cores : SMap CoreSt
  chuck : Chuck
  parts : SMap Part
  mem : Mem
  ctxs : SMap Ctx
  nests : SMap Line
  copies : List CopyCmd
  fab : Fab
  links : Links
  slots : SMap Slot
  words : List WordWr
  cube : Cube
  rlcs : SMap Rlc
  power : Power
  host : Mandrel
  deriving DecidableEq, Repr

/-- The machine right after reset (spec R351; log entries 1, 2, 5 to 10). -/
def State.reset : State :=
  { agenda := [], cur := 0, turn := 0, issue := {}, free := 0, strands := [], nextSid := 0, cores := [],
    chuck := {}, parts := [],
    mem := {},
    ctxs := [], nests := [], copies := [],
    fab := {},
    links := {},
    slots := [],
    words := [],
    cube := {},
    rlcs := [],
    power := {},
    host := {}
  }

end Sys2Proof.Machine
end

