-- ==== Sys2Proof/Machine/MemOps.lean ====
section
/-! DEFINITION. Memory operations: bytes, lines and their checks, the page walk, remote and parcel tests
(spec R179 to R194, R281). -/

namespace Sys2Proof.Machine

/-! ### Bytes -/

/-- What a byte nothing has written reads as (log entry 5). -/
def memDefault : Byte := 0

/-- The canonical form of memory: addresses rising, no byte listed at its default. -/
def Mem.wf (m : Mem) : Bool := SMap.wf memDefault m.cells

/-- One byte of memory. -/
def Mem.byte (m : Mem) (a : Nat) : Byte := SMap.get memDefault m.cells a

/-- The `n` bytes from address `a`. -/
def Mem.bytes (m : Mem) (a n : Nat) : List Byte := (List.range n).map fun i => m.byte (a + i)

/-- The `n` bytes from address `a` as a number, byte 0 lowest (spec R6). -/
def Mem.rd (m : Mem) (a n : Nat) : Nat := ofBytes (m.bytes a n)

/-- Memory with bytes written from address `a` up. -/
def Mem.putBytes (m : Mem) : Nat → List Byte → Mem
  | _, [] => m
  | a, b :: t => Mem.putBytes { m with cells := SMap.set memDefault m.cells a b } (a + 1) t

/-- The physical address of the line that holds `a`, as a line index (spec R192). -/
def lineOf (a : Nat) : Nat := a / 64

/-- The lines a run of bytes touches. -/
def linesOf (a n : Nat) : List Nat := if n = 0 then [] else rangeFrom (lineOf a) (lineOf (a + n - 1) - lineOf a + 1)

/-- A line fails its check (spec R192). -/
def Mem.lineBad (m : Mem) (l : Nat) : Bool := m.bad.contains l

/-- A run of bytes covers the whole of a line. -/
def coversLine (a n l : Nat) : Bool := decide (a ≤ 64 * l) && decide (64 * l + 64 ≤ a + n)

/-- Marks the lines a write touches in every migration that still copies their frame (spec R189). -/
def Mem.mark (m : Mem) (ls : List Nat) : Mem :=
  { m with migs := m.migs.map fun g =>
      { g with marked := g.marked ++ ls.filter fun l => decide (g.old ≤ 64 * l) && decide (64 * l < g.old + 65536)
                                                     && !g.marked.contains l } }

/-- A table entry that is written names what it says: a migration of the node it named before is over for it (spec R188). -/
def Mem.forget (m : Mem) (a n : Nat) : Mem :=
  { m with moved := m.moved.filter fun x => !(decide (a < x.1 + 8) && decide (x.1 < a + n)) }

/-- A whole-line write replaces a line and its check (spec R192). -/
def Mem.heal (m : Mem) (ls : List Nat) : Mem := { m with bad := m.bad.filter fun l => !ls.contains l }

/-- Writes a run of bytes line by line: a whole line takes a new check; a partial write into a line that fails its check is
discarded and reported (spec R192, R193). Answers the memory and the failed lines. -/
def Mem.write (m : Mem) (a : Nat) (bs : List Byte) : Mem × List Nat :=
  let ls := linesOf a bs.length
  let keep (l : Nat) : Bool := m.lineBad l && !coversLine a bs.length l
  let bad := ls.filter keep
  if bad = [] then ((((m.putBytes a bs).heal (ls.filter (coversLine a bs.length))).mark ls).forget a bs.length, [])
  else
    let m1 := ls.foldl (fun (acc : Mem) l =>
      if keep l then acc
      else
        let lo := max a (64 * l)
        let hi := min (a + bs.length) (64 * l + 64)
        acc.putBytes lo ((bs.drop (lo - a)).take (hi - lo))) m
    (((m1.heal (ls.filter (coversLine a bs.length))).mark ls).forget a bs.length, bad)

/-- Writes a number of `n` bytes (spec R6). -/
def Mem.writeN (m : Mem) (a n v : Nat) : Mem × List Nat := m.write a (toBytes n v)

/-- A run of bytes meets a line that fails its check; the first such line. -/
def Mem.badIn (m : Mem) (a n : Nat) : Option Nat := (linesOf a n).find? m.lineBad

/-- The 64 bytes of the line at a line-aligned address. -/
def Mem.line (m : Mem) (a : Nat) : Line := BitVec.ofNat 512 (m.rd a 64)

/-- Writes a line whole, with its check good or bad as it arrives (spec R192, R193). -/
def Mem.putLine (m : Mem) (a : Nat) (v : Line) (ok : Bool) : Mem :=
  let m1 := (m.write a (toBytes 64 v.toNat)).1
  if ok then m1 else { m1 with bad := lineOf a :: m1.bad }

/-! ### Virtual addresses -/

/-- The home field of a VA (spec R180). -/
def homeOf (va : Nat) : Nat := va / 2 ^ 53

/-- The VA is local (spec R180). -/
def State.isLocal (s : State) (va : Nat) : Bool := homeOf va = s.mem.devid.toNat

/-- Cuts a run of VA bytes at 64 KiB page ends, ascending: offset, VA and length of each piece (spec R185). -/
def pageCut : Nat → Nat → Nat → Nat → List (Nat × Nat × Nat)
  | 0, _, _, _ => []
  | _, _, _, 0 => []
  | k + 1, off, va, n + 1 =>
    let room := 65536 - va % 65536
    if n + 1 ≤ room then [(off, va % 2 ^ 64, n + 1)]
    else (off, va % 2 ^ 64, room) :: pageCut k (off + room) (va + room) (n + 1 - room)

/-- The pieces of a run of VA bytes. -/
def pieces (va n : Nat) : List (Nat × Nat × Nat) := pageCut (n / 65536 + 2) 0 va n

/-- The kind of a walk (spec R183). -/
inductive WKind where
  | read
  | write
  | fetch
  deriving DecidableEq, Repr

/-- A fault of a walk: the `MEMORY` code, the level reached and the last PTE read (spec R185); code 0 says that the walker
stalls at a busy frame (spec R188, R333). -/
structure WFault where
  code : Nat
  lvl : Nat
  pte : W64
  deriving DecidableEq, Repr

/-- A translation: physical address, log of the page size, memory with the A and D bits set, and the leaf entry where they changed: its
address and its new value (spec R184); and the leaf entry's value. -/
structure WDone where
  pa : Nat
  lg : Nat
  mem : Mem
  set : Option (Nat × Nat) := none
  pte : Nat := 0
  deriving DecidableEq, Repr

/-- A frame is locked by a swap, or is the old frame of a page whose migration froze (spec R188, R189, R333). -/
def Mem.frameBusy (m : Mem) (frame : Nat) : Bool :=
  m.locked.contains frame || m.migs.any fun g => g.frozen && g.old / 65536 = frame

/-- A run of physical bytes touches a busy frame. -/
def Mem.paBusy (m : Mem) (pa n : Nat) : Bool := m.frameBusy (pa / 65536) || m.frameBusy ((pa + n - 1) / 65536)

/-- A reserved bit of an entry is set (spec R182). -/
def pteReserved (e : Nat) : Bool := nfld e 48 5 ≠ 0 || nfld e 8 8 ≠ 0 || nfld e 6 1 ≠ 0

/-- The index of a level (spec R183). -/
def walkIndex (va lvl : Nat) : Nat := if lvl = 1 then nfld va 41 12 else if lvl = 2 then nfld va 29 12 else nfld va 16 13

/-- The frame of the node that the entry at `at_` of value `e` names: its new one where the frame has migrated (spec R188). -/
def Mem.nodeFrame (m : Mem) (at_ e : Nat) : Nat :=
  match m.moved.find? fun x => x.1 = at_ && x.2.1 = nfld e 16 32 with
  | some x => x.2.2
  | none => nfld e 16 32

/-- The walker's write of a leaf entry: a partial write, lost and to be reported where the line fails its check (spec R184, R193). -/
def Mem.setPte (m : Mem) (at_ v : Nat) : Mem :=
  let (m1, bad) := m.writeN at_ 8 v
  { m1 with lost := m1.lost ++ bad }

/-- One level of the walk and those below it (spec R183, R184); `e` is the entry that names the node, and `src` its address. Which level and entry a
refused pointer reports, and that a failing line is walked, are log entry 107. -/
def Mem.walkFrom (m : Mem) (va : Nat) (kind : WKind) : Nat → Nat → Nat → Nat → Except WFault WDone
  | 0, lvl, _, e => .error { code := 0x08, lvl := lvl - 1, pte := BitVec.ofNat 64 e }
  | k + 1, lvl, src, e =>
    if nfld e 53 11 ≠ m.devid.toNat || nfld e 39 9 ≠ 0 || e.testBit 1 || pteReserved e then
      .error { code := 0x08, lvl := lvl - 1, pte := BitVec.ofNat 64 e }
    else if !(e.testBit 7) then .error { code := 0x07, lvl := lvl - 1, pte := BitVec.ofNat 64 e }
    else if m.frameBusy (m.nodeFrame src e) then .error { code := 0, lvl := lvl, pte := 0 }
    else
      let at_ := m.nodeFrame src e * 65536 + 8 * walkIndex va lvl
      let pte := m.rd at_ 8
      let fault (c : Nat) : Except WFault WDone := .error { code := c, lvl := lvl, pte := BitVec.ofNat 64 pte }
      if !(pte.testBit 0) then fault 0x01
      else if pte.testBit 1 then
        if lvl = 1 || (lvl = 2 && nfld pte 16 13 ≠ 0) || nfld pte 53 11 ≠ m.devid.toNat || nfld pte 39 9 ≠ 0
            || pteReserved pte then fault 0x08
        else if !(pte.testBit 7) then fault 0x09
        else if kind = .write && !(pte.testBit 2) then fault 0x02
        else if kind = .fetch && !(pte.testBit 3) then fault 0x03
        else
          let bits := (pte ||| 16) ||| (if kind = .write then 32 else 0)
          let lg := if lvl = 2 then 29 else 16
          let pa := nfld pte 16 32 * 65536 + va % 2 ^ lg
          if bits = pte then .ok { pa := pa, lg := lg, mem := m, pte := pte }
          else .ok { pa := pa, lg := lg, mem := m.setPte at_ bits, set := some (at_, bits), pte := bits }
      else if lvl = 3 then fault 0x08
      else m.walkFrom va kind k (lvl + 1) at_ pte

/-- The three-level walk of a VA under a PASID (spec R183, R184). -/
def Mem.walk (m : Mem) (pasid va : Nat) (kind : WKind) : Except WFault WDone :=
  let e := (SMap.get 0 m.roots pasid).toNat
  if !(e.testBit 0) then .error { code := 0x01, lvl := 0, pte := BitVec.ofNat 64 e }
  else m.walkFrom va kind 3 1 (2 ^ 48 + pasid) e

/-- A cached translation answers for a VA and a kind of walk (spec R181, R183). -/
def Cached.covers (c : Cached) (pasid va : Nat) (kind : WKind) : Bool :=
  c.pasid = pasid && c.va = va / 2 ^ c.lg * 2 ^ c.lg && (kind ≠ .write || c.write) && (kind ≠ .fetch || c.exec)

/-- A walk's translation as the MTU caches it. -/
def WDone.cached (d : WDone) (pasid va : Nat) : Cached :=
  { pasid := pasid, va := va / 2 ^ d.lg * 2 ^ d.lg, pa := d.pa - va % 2 ^ d.lg, lg := d.lg, write := d.pte.testBit 2, exec := d.pte.testBit 3 }

/-- The MTU caches a translation (spec R181). -/
def Mem.learn (m : Mem) (c : Cached) : Mem :=
  if m.tlb.contains c then m else { m with tlb := c :: m.tlb.filter fun x => !(x.pasid = c.pasid && x.va = c.va && x.lg = c.lg) }

/-- Cached translations of a PASID that touch `n` bytes at a VA are gone (spec R181). -/
def Mem.unlearn (m : Mem) (pasid va n : Nat) : Mem :=
  { m with tlb := m.tlb.filter fun c => !(c.pasid = pasid && decide (c.va < va + n) && decide (va < c.va + 2 ^ c.lg)) }

/-- A walk whose translation the MTU caches (spec R181). -/
def Mem.walkLearn (m : Mem) (pasid va : Nat) (kind : WKind) : Except WFault WDone :=
  match m.walk pasid va kind with
  | .ok d => .ok { d with mem := d.mem.learn (d.cached pasid va) }
  | .error f => .error f

/-- A walk ends where a cached translation does. -/
def Cached.agrees (c : Cached) (va : Nat) : Except WFault WDone → Bool
  | .ok d => decide (d.pa = c.pa + va % 2 ^ c.lg ∧ d.lg = c.lg)
  | .error _ => false

/-- A translation of a VA: by the walk; where the cache holds another one, which of the two serves is open until an invalidation (spec R181,
R183; log entry 18). -/
def Mem.find (m : Mem) (pasid va : Nat) (kind : WKind) : Except WFault WDone :=
  match m.tlb.find? fun c => c.covers pasid va kind with
  | none => m.walkLearn pasid va kind
  | some c =>
    if c.agrees va (m.walk pasid va kind) || !(Config.stale pasid va c.pa) then m.walkLearn pasid va kind
    else .ok { pa := c.pa + va % 2 ^ c.lg, lg := c.lg, mem := m }

/-- The walk of a VA ends at a node whose entry names a remote home (spec R188). -/
def Mem.remoteNode (m : Mem) (pasid va : Nat) : Bool :=
  match m.walk pasid va .read with
  | .ok _ => false
  | .error f => f.code = 0x08 && decide (f.lvl < 3) && !(bbit f.pte 1) && bfld f.pte 53 11 ≠ m.devid.toNat

/-- How the walk of a VA ends, as a number: 0 where it succeeds, else the code and 16 times the level reached (spec R185). -/
def Mem.faultKey (m : Mem) (pasid va : Nat) : Nat :=
  match m.walk pasid va .read with
  | .ok _ => 0
  | .error f => f.code + 16 * f.lvl

/-- The page of a VA under a PASID is frozen by a migration (spec R189). -/
def Mem.frozen (m : Mem) (pasid va : Nat) : Bool :=
  m.migs.any fun g => g.frozen && g.pasid = pasid && g.va / 65536 = va / 65536

/-- The slot whose extent or armed region a run of VA bytes touches, if one is not FREE (spec R281). -/
def State.parcelAt (s : State) (pasid va n : Nat) : Option Nat :=
  (s.slots.find? fun e => e.2.st ≠ 0 && e.2.pasid = pasid && decide (va < e.2.base.toNat + e.2.size)
    && decide (e.2.base.toNat < va + n)).map Prod.fst

/-- What a run of VA bytes meets when an engine or system action touches it. -/
inductive VFault where
  /-- a `MEMORY` fault: its code, at a VA -/
  | mem (code va : Nat)
  /-- a page-in fault: `PAGE_IN` or `TABLE`, at a VA (spec R186) -/
  | pageIn (code va : Nat)
  /-- the extent of a slot that is not FREE (spec R281) -/
  | parcel (slot va : Nat)
  /-- a page frozen by a migration: the action stalls (spec R189) -/
  | frozen
  deriving DecidableEq, Repr

/-- An access to bytes of one frame counts once for each line it touches (spec R334; log entry 104). -/
def Mem.hit (m : Mem) (pa n : Nat) : Mem :=
  { m with hits := SMap.set 0 m.hits (pa / 65536) (SMap.get 0 m.hits (pa / 65536) + (linesOf pa n).length) }

/-- The fault of a walk by its code. -/
def WFault.toV (f : WFault) (va : Nat) : VFault :=
  if f.code = 0 then .frozen else if f.code = 0x07 || f.code = 0x09 then .pageIn f.code va else .mem f.code va

/-- Translates pieces of a run of VA bytes page by page for an engine (spec R181, R185): only the home of a page translates it, so a piece with
another home is a remote load (spec R190). -/
def translatePieces (pasid : Nat) (kind : WKind) : List (Nat × Nat × Nat) → State → Except VFault (List Seg × State)
  | [], s => .ok ([], s)
  | (off, va, n) :: t, s =>
    if !(s.isLocal va) then .error (.mem 0x04 va)
    else if s.mem.frozen pasid va then .error .frozen
    else
      match s.mem.find pasid va kind with
      | .error f => .error (f.toV va)
      | .ok d =>
        if s.mem.paBusy d.pa n then .error .frozen
        else
          match translatePieces pasid kind t { s with mem := d.mem.hit d.pa n } with
          | .error f => .error f
          | .ok (segs, s1) => .ok ({ off := off, pa := d.pa, len := n, va := va } :: segs, s1)

/-- Translates a local run of VA bytes for an engine or a system action: bytes of a parcel's extent refuse it before any walk (spec R281). -/
def State.translate (s : State) (pasid va n : Nat) (kind : WKind) : Except VFault (List Seg × State) :=
  match s.parcelAt pasid va n with
  | some x => .error (.parcel x va)
  | none => translatePieces pasid kind (pieces va n) s

/-- Translates a local run of VA bytes for a parcel's own transfer, which may reach its extent (spec R281). -/
def State.translateOwn (s : State) (pasid va n : Nat) (kind : WKind) : Except VFault (List Seg × State) :=
  translatePieces pasid kind (pieces va n) s

/-- The bits that the walks of pieces set before one meets a fault (spec R184). -/
def walkPieces (pasid : Nat) (kind : WKind) : List (Nat × Nat × Nat) → State → State
  | [], s => s
  | (_, va, n) :: t, s =>
    if !(s.isLocal va) || s.mem.frozen pasid va then s
    else
      match s.mem.find pasid va kind with
      | .error _ => s
      | .ok d => if s.mem.paBusy d.pa n then s else walkPieces pasid kind t { s with mem := d.mem }

/-- A translation was tried, or its bytes were not fit to use: the bits that its walks set stay (spec R184). -/
def State.tried (s : State) (pasid va n : Nat) (kind : WKind) : State :=
  if (s.parcelAt pasid va n).isSome then s else walkPieces pasid kind (pieces va n) s

/-- The value of the bytes segments name, each at its offset. -/
def Mem.gather (m : Mem) (segs : List Seg) : Nat :=
  segs.foldl (fun acc g => acc ||| (m.rd g.pa g.len <<< (8 * g.off))) 0

/-- The first line of segments that fails its check. -/
def Mem.badSeg (m : Mem) (segs : List Seg) : Option Nat := segs.findSome? fun g => m.badIn g.pa g.len

/-- The VA of a line that a segment names (spec R193). -/
def Seg.lineVa (g : Seg) (l : Nat) : Nat := (g.va + 64 * l - g.pa) / 64 * 64

/-- The VA of the first line of segments that fails its check. -/
def Mem.badVa (m : Mem) (segs : List Seg) : Option Nat := segs.findSome? fun g => (m.badIn g.pa g.len).map g.lineVa

/-- Writes a value's bytes at segments. Answers the lines whose partial write was discarded. -/
def Mem.scatter (m : Mem) (segs : List Seg) (v : Nat) : Mem × List Nat :=
  segs.foldl (fun acc g =>
    let r := acc.1.writeN g.pa g.len (v >>> (8 * g.off))
    (r.1, acc.2 ++ r.2)) (m, [])

end Sys2Proof.Machine
end

