-- ==== Sys2Proof/Machine/EngOps.lean ====
section
/-! DEFINITION. Engine operations shared by the instructions and the nodes: timelines and error words (spec R217, R220),
handler packets and events (spec R343, R344), nests (spec R114, R115), the start of copy and cube commands and of
refinement blocks (spec R223, R244, R302). -/

namespace Sys2Proof.Machine

/-! ### Handler packets and events -/

/-- A queue by its index. -/
def State.queue (s : State) (q : Nat) : Queue := SMap.get {} s.host.queues q

/-- A queue replaced. -/
def State.setQueue (s : State) (q : Nat) (v : Queue) : State :=
  { s with host := { s.host with queues := SMap.set {} s.host.queues q v } }

/-- Entries of a queue's ring (spec R340). -/
def Queue.entries (q : Queue) : Nat := 2 ^ bfld q.qrec 85 5

/-- The partition of a queue (spec R340). -/
def Queue.part (q : Queue) : Nat := bfld q.qrec 102 6

/-- The PASID of a queue. -/
def Queue.pasid (q : Queue) : Nat := bfld q.qrec 108 20

/-- A queue of a physical function (spec R337). -/
def Queue.isPf (q : Queue) : Bool := decide (q.fn < 2)

/-- The function of a queue may use it: a PF, or a VF mapped to the queue's partition; the queues of a VF that is not mapped are disabled
(spec R337). -/
def State.fnOpen (s : State) (q : Queue) : Bool := q.isPf || SMap.get none s.host.vfmap (q.fn - 2) = some q.part

/-- A queue is an enabled handler queue (spec R337, R343). -/
def State.isHandler (s : State) (q : Queue) : Bool := q.en && !q.err && bbit q.qrec 83 && s.fnOpen q

/-- A handler queue is full: as many entries as the ring has wait for software. -/
def Queue.isFull (q : Queue) : Bool := decide (q.entries ≤ q.head - q.tail)

/-- The 128 bytes of a handler packet (spec R343). -/
def hpkt (rec_ first off pasid queue code : Nat) : BitVec 1024 :=
  BitVec.ofNat 1024 (0x80 + code % 2 ^ 16 * 2 ^ 16 + queue % 2 ^ 12 * 2 ^ 32 + pasid % 2 ^ 20 * 2 ^ 44 + off % 2 ^ 64 * 2 ^ 64
    + first % 2 ^ 256 * 2 ^ 256 + rec_ % 2 ^ 512 * 2 ^ 512)

/-- The VA of the entry of a handler ring that is written next (spec R340, R343). -/
def Queue.entryVa (q : Queue) : Nat := (bfld q.qrec 0 64 + q.head % q.entries * 128) % 2 ^ 64

/-- Puts a handler packet into a queue that can take it: into the ring where the ring is a global VA, and into the record of
what left the device (spec R343; log entry 74). -/
def State.ringPut (s : State) (dst : Nat) (data : BitVec 1024) : State :=
  let q := s.queue dst
  let s1 :=
    if bbit q.qrec 84 then s
    else
      match s.translate q.pasid q.entryVa 128 .write with
      | .ok (segs, s1) => { s1 with mem := (s1.mem.scatter segs data.toNat).1 }
      | .error _ => s
  let s2 := s1.setQueue dst { q with head := q.head + 1 }
  { s2 with host := { s2.host with out := s2.host.out ++ [{ queue := some dst, data := data }] } }

/-- The handler ring is a host ring whose PASID is torn down: its packets are dropped (spec R347). -/
def Queue.drops (q : Queue) : Bool := bbit q.qrec 84 && q.down

/-- A handler packet dropped and counted (spec R347). -/
def State.countDrop (s : State) : State :=
  { s with host := { s.host with late := bset s.host.late 32 32 (min (bfld s.host.late 32 32 + 1) (2 ^ 32 - 1)) } }

/-- A handler packet that queue `src` causes goes to queue `dst` by `put` (spec R343): not to a queue that is no handler queue, nor while it is
full; a packet for a host ring of a PASID torn down is dropped and counted (spec R347). -/
def State.tell (s : State) (put : State → Nat → BitVec 1024 → State) (src : Option Nat) (dst : Nat) (data : BitVec 1024) : State :=
  let q := s.queue dst
  if !(s.isHandler q) then
    match src with
    | some i => s.setQueue i { s.queue i with err := true }
    | none => { s with host := { s.host with out := s.host.out ++ [{ queue := none, data := data }] } }
  else if q.drops then s.countDrop
  else if q.isFull then { s with host := { s.host with pend := s.host.pend ++ [(src, dst, data)] } }
  else put s dst data

/-- A queue of a function that may use it is enabled (spec R337, R340). -/
def State.enabled (s : State) (q : Queue) : Bool := q.en && s.fnOpen q

/-- The sibling of a queue (spec R340). -/
def State.sibling (s : State) (q : Nat) : Nat := bfld (s.queue q).qrec 90 12

/-- A partition by its index. -/
def State.part (s : State) (p : Nat) : Part := SMap.get {} s.parts p

/-- A partition replaced. -/
def State.setPart (s : State) (p : Nat) (v : Part) : State := { s with parts := SMap.set {} s.parts p v }

/-- The queue of a host event: the event queue of the partition, or PF queue 0's sibling (spec R343). -/
def State.eventQueue (s : State) (p : Nat) : Nat :=
  match (s.part p).evq with
  | some q => q
  | none => s.sibling 0

/-- The packet of a page-in event (spec R186): PASID, VA and code. -/
def pageInPkt (pasid va code : Nat) : BitVec 1024 :=
  hpkt (va % 2 ^ 64 + pasid % 2 ^ 20 * 2 ^ 64 + code % 2 ^ 8 * 2 ^ 88) 0 0 pasid 0 0x20

/-- A handler packet goes into its ring; where the walk of the ring's entry meets a node with a remote home, system software receives an event
(spec R188). The ring of that event is not looked into again (log entry 74). -/
def State.deliver (s : State) (dst : Nat) (data : BitVec 1024) : State :=
  let q := s.queue dst
  let s1 := s.ringPut dst data
  match s.translate q.pasid q.entryVa 128 .write with
  | .error (.mem code va) =>
    if !(bbit q.qrec 84) && code = 0x08 && s.mem.remoteNode q.pasid va then
      s1.tell State.ringPut none (s1.eventQueue q.part) (pageInPkt q.pasid va code)
    else s1
  | .error (.pageIn _ _) | .error (.parcel _ _) | .error .frozen | .ok _ => s1

/-- Enqueues a handler packet that queue `src` causes into queue `dst` (spec R343). -/
def State.enqueueTo (s : State) (src : Option Nat) (dst : Nat) (data : BitVec 1024) : State := s.tell State.deliver src dst data

/-- Handler packets that wait are tried again, in order: a queue may have room, or be no handler queue any longer, or drop them (spec R343,
R347). -/
def State.pendRetry (s : State) : State :=
  s.host.pend.foldl (fun (t : State) e => t.enqueueTo e.1 e.2.1 e.2.2) { s with host := { s.host with pend := [] } }

/-- The handler packet for a malformed packet of a queue (spec R343, R344). -/
def State.handlerPkt (s : State) (q : Nat) (first off code rec_ : Nat) : State :=
  s.enqueueTo (some q) (s.sibling q) (hpkt rec_ first off (bfld (s.queue q).qrec 108 20) q code)

/-- A host event (spec R343; the rec of a page-in, line, migration or log event is laid out as log entry 26 says). -/
def State.event (s : State) (p pasid code rec_ : Nat) : State :=
  s.enqueueTo none (s.eventQueue p) (hpkt rec_ 0 0 pasid 0 code)

/-- The page-in event (spec R186). -/
def State.pageInEvent (s : State) (p pasid va code : Nat) : State := s.enqueueTo none (s.eventQueue p) (pageInPkt pasid va code)

/-- A `MEMORY` fault of an engine or a system action: where its walk met a node with a remote home, system software receives an
event (spec R188). -/
def State.nodeSeen (s : State) (p pasid va code : Nat) : State :=
  if code = 0x08 && s.mem.remoteNode pasid va then s.pageInEvent p pasid va code else s

/-- The line event (spec R193): the line's physical address. -/
def State.lineEvent (s : State) (p line : Nat) : State := s.event p 0 0x21 (64 * line)

/-- Line events for each of a list of lines. -/
def State.lineEvents (s : State) (p : Nat) (ls : List Nat) : State := ls.foldl (fun t l => t.lineEvent p l) s

/-- What the walkers of a step lost: each line is a host event, which belongs to no partition (spec R193). -/
def State.flushLost (s : State) : State :=
  ({ s with mem := { s.mem with lost := [] } } : State).lineEvents (2 ^ 16) s.mem.lost

/-! ### Timelines -/

/-- An engine context. -/
def State.ctx (s : State) (c : Nat) : Ctx := SMap.get {} s.ctxs c

/-- An engine context replaced. -/
def State.setCtx (s : State) (c : Nat) (v : Ctx) : State := { s with ctxs := SMap.set {} s.ctxs c v }

/-- A command takes the next sequence number of its context (spec R217). -/
def State.takeSeq (s : State) (c : Nat) : Nat × State :=
  let v := s.ctx c
  ((v.issued + 1).toNat, s.setCtx c { v with issued := v.issued + 1 })

/-- The counter moved past numbers already complete (spec R217). -/
def advance : Nat → Nat → List Nat → Nat × List Nat
  | 0, c, l => (c, l)
  | n + 1, c, l => if l.contains (c + 1) then advance n (c + 1) (l.filter (· ≠ c + 1)) else (c, l)

/-- The error word with a failure recorded (spec R220). -/
def errRecord (e : W64) (seq kind detail : Nat) : W64 :=
  if bbit e 7 then bset e 6 1 1
  else bset (bset (bset (bset e 32 32 seq) 24 8 kind) 8 16 detail) 7 1 1

/-- A command completes: its failure and conditions go to the error word, and the counter advances as far as it can
(spec R217, R220). -/
def State.complete (s : State) (c n : Nat) (fail : Option (Nat × Nat)) (flags : Nat) : State :=
  let v := s.ctx c
  let e1 := match fail with
    | some (kind, detail) => errRecord v.err n kind detail
    | none => v.err
  let e2 := e1 ||| BitVec.ofNat 64 (flags % 64)
  let done := n :: v.done
  let (ctr, rest) := advance done.length v.counter.toNat done
  let s1 := s.setCtx c { v with err := e2, counter := BitVec.ofNat 64 ctr, done := rest }
  { s1 with strands := s1.strands.map fun e =>
      if e.2.sch.idle && e.2.sch.idleOn.contains (c, n) then
        (e.1, { e.2 with sch := { e.2.sch with idle := false, idleOn := [] } }) else e }

/-- A queue entry of a strand has performed. -/
def State.gateOpen (s : State) (sid : Nat) (g : Option Nat) : Bool :=
  match g with
  | none => true
  | some a =>
    match SMap.find s.strands sid with
    | none => true
    | some st => !(st.q.accs.any fun x => x.id = a)

/-- The strand handle of an issuer; a node has none. -/
def Issuer.sid : Issuer → Nat
  | .strand i _ _ => i
  | .node _ => 0

/-- A command of an issuer may start: the accesses before it have performed (spec R225, R252). -/
def State.mayStart (s : State) (i : Issuer) (g : Option Nat) : Bool :=
  match i with
  | .strand sid _ _ => s.gateOpen sid g
  | .node _ => true

/-- The partition of an issuer. -/
def State.partOf (s : State) : Issuer → Nat
  | .strand _ id _ => id.part
  | .node n => (SMap.get {} s.chuck.nodes n).part

/-! ### Remote accesses of a strand -/

/-- Accesses of a strand whose transactions are not all answered (spec R210). -/
def State.remoteIds (s : State) (sid : Nat) : List Nat :=
  s.fab.outs.filterMap fun o => match o.org with
    | .access i a => if i = sid then some a else none
    | .cmd _ _ => none

/-- A packet is held: the fabric port has not accepted it (spec R277). -/
def PSt.here : PSt → Bool
  | .held | .full => true
  | .waits | .placed _ => false

/-- Accesses of a strand that the fabric port has not accepted: a packet is held (spec R210, R277). -/
def State.heldIds (s : State) (sid : Nat) : List Nat :=
  s.fab.outs.filterMap fun o => match o.org with
    | .access i a => if i = sid && o.pkts.any (fun p => p.st.here) then some a else none
    | .cmd _ _ => none

/-! ### Nests -/

/-- The reserved bits of a nest descriptor are zero and its format is 0x01 (spec R114). -/
def nestOk (d : Line) : Bool :=
  bfld d 0 8 = 1 && bfld d 14 2 = 0 && bfld d 22 42 = 0 && bfld d 456 56 = 0

/-- The bound of a level. -/
def nestBound (d : Line) (l : Nat) : Nat := bfld d (64 * l + 64) 16

/-- The stride of a stream at a level, signed, before scaling. -/
def nestStride (d : Line) (j l : Nat) : Int := sval 24 (bfld d (64 * l + 80 + 24 * j) 24)

/-- The scale of a stream. -/
def nestScale (d : Line) (j : Nat) : Nat := bfld d (448 + 4 * j) 4

/-- The count of iterations: the product of the bounds. -/
def nestCount (d : Line) : Nat := (List.range 6).foldl (fun a l => a * nestBound d l) 1

/-- The index tuple of iteration `t`, level 0 innermost (spec R115). -/
def nestIdx (d : Line) : Nat → Nat → Nat → List Nat
  | 0, _, _ => []
  | n + 1, l, t => t % nestBound d l :: nestIdx d n (l + 1) (t / nestBound d l)

/-- The offset of a stream at an index tuple (spec R115, R223, R237). -/
def nestOff (d : Line) (j : Nat) : List Nat → Nat → Int
  | [], _ => 0
  | i :: t, l => (i : Int) * nestStride d j l * (2 ^ nestScale d j : Nat) + nestOff d j t (l + 1)

/-- The offset of a stream in iteration `t`. -/
def nestOffAt (d : Line) (j t : Nat) : Int := nestOff d j (nestIdx d 6 0 t) 0

/-! ### Copy commands -/

/-- Commands of a context that have not completed (spec R221). -/
def State.copiesOf (s : State) (c : Nat) : Nat := (s.copies.filter fun x => x.ctx = c).length

/-- A copy command takes its number and its snapshot (spec R223). -/
def State.copyStart (s : State) (c : Nat) (iss : Issuer) (gate : Option Nat) (pasid : Nat) (a b ctl : W64)
    (units : List Nat) : Nat × State :=
  let (n, s1) := s.takeSeq c
  let cmd : CopyCmd :=
    { ctx := c, seq := n, iss := iss, gate := gate, pasid := pasid, nest := SMap.get 0 s.nests c, src := a, dst := b,
      ctl := ctl, units := units, stalled := false }
  (n, { s1 with copies := s1.copies ++ [cmd] })

/-! ### Cube commands -/

/-- The logical layer count (spec R231). -/
def State.nl (s : State) : Nat := bfld s.cube.layers 0 4

/-- The cube is unavailable (spec R230). -/
def State.cubeOff (s : State) : Bool := s.nl = 0

/-- A layer is in plane mode (spec R232). -/
def State.planeOf (s : State) (l : Nat) : Bool := bbit s.cube.mode l

/-- Commands of a context that have not completed (spec R229); `CZERO` is none. -/
def State.cubeCmdsOf (s : State) (c : Nat) : List CubeCmd :=
  s.cube.cmds.filter fun x => x.ctx = c && x.seq ≠ 0

/-- Fields of a descriptor (spec R233). -/
def dType (d : BitVec 256) : Nat := bfld d 4 5
/-- The codebook table of a descriptor. -/
def dTable (d : BitVec 256) : Nat := bfld d 9 4
/-- The layout of a descriptor: 0 PLAIN, 1 SD, 2 SCALED. -/
def dLayout (d : BitVec 256) : Nat := bfld d 13 2
/-- The space of a descriptor: true for a face. -/
def dFace (d : BitVec 256) : Bool := bbit d 15
/-- The row stride of a descriptor. -/
def dRstride (d : BitVec 256) : Nat := bfld d 64 32
/-- The scale row stride of a descriptor. -/
def dSstride (d : BitVec 256) : Nat := bfld d 96 32
/-- The base of a descriptor. -/
def dBase (d : BitVec 256) : Nat := bfld d 128 64
/-- The scale array of a descriptor. -/
def dSva (d : BitVec 256) : Nat := bfld d 192 64

/-- The column of a step: 64-byte blocks along K (spec R234). -/
def stepCol (d : BitVec 256) (c s : Nat) : Nat := if dFace d then s / c else s

/-- The address of a row of an operand (spec R234): a VA modulo 2^64, or a face offset. -/
def rowAddr (d : BitVec 256) (o : Int) (i c s : Nat) : Int :=
  (dBase d : Int) + o + ((i * dRstride d + 64 * stepCol d c s : Nat) : Int)

/-- The width of a type code that an operand may hold. -/
def opWidth (t : Nat) : Nat :=
  if t = 8 || t = 22 || t = 24 then 4 else if t = 18 || t = 19 then 16 else if t = 16 then 64 else if t = 17 then 32 else
  if t = 0 || t = 4 || t = 20 || t = 21 || t = 23 then 8 else 0

/-- The width that a `wc` code names (spec R240). -/
def wcWidth (wc : Nat) (a b : BitVec 256) : Nat :=
  if wc = 0 then 8 else if wc = 1 then 4 else if wc = 2 then 16 else if dLayout a = 1 then opWidth (dType b) else opWidth (dType a)

/-- The lowest and highest stream offsets over the tuples of a nest: each level adds its extreme (spec R244). -/
def nestRange (d : Line) (j : Nat) : Int × Int :=
  (List.range 6).foldl (fun (acc : Int × Int) l =>
    let x := ((nestBound d l - 1 : Nat) : Int) * nestStride d j l * (2 ^ nestScale d j : Nat)
    if x < 0 then (acc.1 + x, acc.2) else (acc.1, acc.2 + x)) (0, 0)

/-- A face operand reaches outside its face over the command's tuples, rows and steps (spec R244). -/
def faceBadRange (nest : Line) (j : Nat) (d : BitVec 256) (rows c k : Nat) : Bool :=
  dFace d && nestCount nest ≠ 0 &&
    (let (lo, hi) := nestRange nest j
     decide (rowAddr d lo 0 c 0 < 0) || decide (0x37FFFF < rowAddr d hi (rows - 1) c (k - 1) + 63))

/-- The strides of a nest are all multiples of 64 (spec R244). -/
def nestStridesOk (d : Line) : Bool :=
  (List.range 6).all fun l => (nestStride d 0 l * (2 ^ nestScale d 0 : Nat)) % 64 = 0
    && (nestStride d 1 l * (2 ^ nestScale d 1 : Nat)) % 64 = 0

/-- A trap of the issue of a cube command: class and code (spec R244, R256). -/
abbrev CubeTrap := Nat × Nat

/-- The layers a joined mask selects (spec R239, R244). -/
def State.maskLayers (s : State) (mask : Nat) : List Nat := (List.range s.nl).filter fun l => mask.testBit l

/-- The issue checks of `CUBE.MM` and `CPLANE` after the formats are resolved (spec R244). -/
def State.cubeCheck (s : State) (nest : Line) (a b : BitVec 256) (plane : Bool) (maskOrLayer wc m n k : Nat) :
    Except CubeTrap (List Nat × Nat) :=
  let ls := if plane then [maskOrLayer] else s.maskLayers maskOrLayer
  let w := wcWidth wc a b
  if !(nestOk nest) then .error (0x0D, 0x02)
  else if plane && (decide (s.nl ≤ maskOrLayer) || !(s.planeOf maskOrLayer)) then .error (0x0D, 0x01)
  else if !plane && (ls.isEmpty || ls.any s.planeOf) then .error (0x0D, 0x01)
  else if wc = 3 && dLayout a = 1 && dLayout b = 1 then .error (0x0D, 0x02)
  else if (dLayout a ≠ 1 && opWidth (dType a) ≠ w) || (dLayout b ≠ 1 && opWidth (dType b) ≠ w) then .error (0x07, 0x02)
  else if !(nestStridesOk nest) then .error (0x0D, 0x02)
  else if faceBadRange nest 0 a m ls.length k || faceBadRange nest 1 b n ls.length k then .error (0x0D, 0x02)
  else .ok (ls, w)

/-- A cube command queued (spec R217, R236). -/
def State.cubeQueue (s : State) (c : CubeCmd) : Nat × State :=
  let (n, s1) := s.takeSeq (4096 + c.ctx)
  (n, { s1 with cube := { s1.cube with cmds := s1.cube.cmds ++ [{ c with seq := n }] } })

/-! ### Refinement blocks -/

/-- A context of the controller. -/
def State.rlc (s : State) (x : Nat) : Rlc := SMap.get {} s.rlcs x

/-- A context of the controller replaced. -/
def State.setRlc (s : State) (x : Nat) (v : Rlc) : State := { s with rlcs := SMap.set {} s.rlcs x v }

/-- The block at the head of a context. -/
def Rlc.head (v : Rlc) : Option RBlock := v.queue.head?

/-- A `f64` encoding is finite and above zero. -/
def f64Pos (x : Nat) : Bool := !(x.testBit 63) && nfld x 52 11 ≠ 2047 && nfld x 0 63 ≠ 0

/-- A `f64` encoding is finite and not below zero. -/
def f64NonNeg (x : Nat) : Bool := nfld x 52 11 ≠ 2047 && (!(x.testBit 63) || nfld x 0 63 = 0)

/-- A format code of a rung is listed (spec R295). -/
def rungFmtOk (t : Nat) : Bool := decide (t ≤ 8) || (decide (16 ≤ t) && decide (t ≤ 24))

/-- The rung field of a block. -/
def blkRung (b : BitVec 1024) (r : Nat) : Nat := bfld b (320 + 16 * r) 16

/-- The stage descriptor of a block. -/
def blkStg (b : BitVec 1024) (i : Nat) : Nat := bfld b (64 * i + 64) 64

/-- The strand count of the stage a context stands in (spec R295). -/
def Rlc.stageCount (v : Rlc) (r : RBlock) : Nat := nfld (blkStg r.blk (v.st - 1)) 32 6 + 1

/-- The rung count less one. -/
def blkNr (b : BitVec 1024) : Nat := bfld b 8 2

/-- A rung entry is good for its index (spec R295, R302). -/
def rungOk (b : BitVec 1024) (r : Nat) : Bool :=
  let g := blkRung b r
  if r ≤ blkNr b then nfld g 10 6 = 0 && rungFmtOk (nfld g 0 5) && rungFmtOk (nfld g 5 5) else g = 0

/-- The offset of the first bad 8-byte word of a block; none for a good one (spec R302). -/
def blkBad (va : Nat) (b : BitVec 1024) : Option Nat :=
  let stgBad (i : Nat) : Bool :=
    let g := blkStg b i
    nfld g 42 22 ≠ 0 || (g.testBit 41 && decide (8 < nfld g 32 6 + 1))
  let checks : List (Bool × Nat) :=
    [(va % 256 ≠ 0 || bfld b 0 8 ≠ 1 || bfld b 19 13 ≠ 0 || bfld b 32 32 = 0, 0),
     (stgBad 0, 8), (stgBad 1, 16), (stgBad 2, 24), (stgBad 3, 32),
     ((List.range 4).any fun r => !(rungOk b r), 40),
     (!(f64NonNeg (bfld b 384 64)), 48), (!(f64Pos (bfld b 448 64)), 56), (!(f64Pos (bfld b 512 64)), 64),
     (!(f64Pos (bfld b 576 64)), 72), (bfld b 704 64 % 256 ≠ 0, 88), (bfld b 768 64 ≠ 0, 96), (bfld b 832 64 ≠ 0, 104),
     (bfld b 896 64 ≠ 0, 112), (bfld b 960 64 ≠ 0, 120)]
  (checks.find? Prod.fst).map Prod.snd

/-- A block queued on its context, taking its number (spec R302). -/
def State.blockQueue (s : State) (x : Nat) (r : RBlock) : Nat × State :=
  let (n, s1) := s.takeSeq (3 * 4096 + x)
  let v := s1.rlc x
  (n, s1.setRlc x { v with queue := v.queue ++ [{ r with seq := n }] })

/-- The physical addresses of the status fields, bytes 128 to 255, of the blocks not complete (spec R295). -/
def State.statusPas (s : State) : List Nat :=
  (s.rlcs.flatMap fun e => e.2.queue).filterMap fun r =>
    match translatePieces r.pasid .read [(0, (r.va.toNat + 128) % 2 ^ 64, 128)] s with
    | .ok (segs, _) => segs.head?.map Seg.pa
    | .error _ => none

/-- The words of status fields that runs of written bytes touch: address and length (spec R295). -/
def State.statusHits (s : State) (l : List (Nat × Nat)) : List (Nat × Nat) :=
  s.statusPas.flatMap fun p => l.filterMap fun w =>
    let lo := max p (w.1 / 8 * 8)
    let hi := min (p + 128) ((w.1 + w.2 + 7) / 8 * 8)
    if lo < hi then some (lo, hi - lo) else none

/-- The status words, of a block not complete, that a program's write touched take free values (spec R295; log entry 98). -/
def State.spoilStatus (s : State) (ws : List (Nat × Nat)) : State :=
  ws.foldl (fun t w =>
    { t with mem := (t.mem.writeN w.1 w.2 (Config.freeVec t.free).toNat).1, free := t.free + 1 }) s

/-- A program's write of a value at segments. Answers the lines whose partial write was discarded (spec R193, R295). -/
def State.storeSegs (s : State) (segs : List Seg) (v : Nat) : State × List Nat :=
  let (m, bad) := s.mem.scatter segs v
  (({ s with mem := m } : State).spoilStatus (s.statusHits (segs.map fun g => (g.pa, g.len))), bad)

end Sys2Proof.Machine
end

