-- ==== Sys2Proof/Machine/Sched.lean ====
section
/-! DEFINITION. Chuck's operations: strands and their creation, stage pools, nodes, releases, triggers and completions
(spec R16 to R31, R128, R135, R296, R342). -/

namespace Sys2Proof.Machine

/-! ### Strands -/

/-- A strand by its handle. -/
def State.strand? (s : State) (i : Nat) : Option Strand := SMap.find s.strands i

/-- A strand put under its handle. -/
def State.setStrand (s : State) (i : Nat) (t : Strand) : State := { s with strands := SMap.put s.strands i t }

/-- A strand changed, if it exists. -/
def State.onStrand (s : State) (i : Nat) (f : Strand → Strand) : State :=
  match s.strand? i with
  | some t => s.setStrand i (f t)
  | none => s

/-- A strand and its record freed (spec R34). -/
def State.dropStrand (s : State) (i : Nat) : State := { s with strands := SMap.erase s.strands i }

/-- The number of a core: 0 to 255 the vector cores, 256 the CIC. -/
def Place.key (p : Place) : Nat := if p.cic then 256 else p.cluster.toNat * 8 + p.core.toNat

/-- The cycle count of a core. -/
def State.cycle (s : State) (k : Nat) : Nat := (SMap.get {} s.cores k).cycle

/-- The window units a strand starts with hold its arguments (spec R21, R37). -/
def argRegs (args : Nat) : SMap Vec :=
  (List.range 4).foldl (fun m u => SMap.set 0 m u (BitVec.ofNat 2048 (args >>> (2048 * u)))) []

/-- The PHINT range that names a whole scratchpad allotment of `kib` KiB (spec R131, R141). -/
def wholeRange (kib : Nat) : W64 := BitVec.ofNat 64 (kib * 1024 * 2 ^ 20)

/-- A strand as it is created (spec R18, R26, R37): identity, frames, entry, and the bytes of its argument area. -/
def newStrand (id : Ident) (fr : Frames) (entry : W32) (cseg args : Nat) : Strand :=
  { id := { id with eprio := id.bprio, state := 0 }, fr := fr, pc := entry, cseg := cseg,
    win := { base := 0, f := fr.fsize, lo := 0, hi := fr.fsize, ep := true }, regs := argRegs args,
    sch := { phB := wholeRange fr.spad } }

/-- Adds a strand. Answers its handle. -/
def State.addStrand (s : State) (t : Strand) : Nat × State :=
  (s.nextSid, { s with strands := SMap.put s.strands s.nextSid { t with fetched := s.mem.cells }, nextSid := s.nextSid + 1 })

/-- Context-store entries in all (spec R134). -/
def State.entries (s : State) : Nat := bfld s.chuck.ctx 0 16

/-- A strand that ended and whose accesses have still to perform: its record is freed (spec R34, R128). -/
def Strand.gone (t : Strand) : Bool := t.id.state = 7 && !t.place.resident

/-- Context-store entries held: one for each strand, those granted to a `SPAWN` that waited, and those of the next gangs of
launches (spec R135). -/
def State.entriesHeld (s : State) : Nat :=
  (s.strands.filter fun e => !e.2.gone).length + (s.strands.filter fun e => e.2.sch.grant).length
    + s.chuck.nodes.foldl (fun a e => a + e.2.resv) 0

/-- Context-store entries free (spec R135). -/
def State.entriesFree (s : State) : Nat := s.entries - s.entriesHeld

/-- The priority of a creation that waits (spec R135). -/
def Creation.prio : Creation → Nat
  | .handler _ p _ => p
  | .stage _ p => p
  | .spawn _ p => p
  | .gang _ p => p

/-- Strands of a launch that have not exited, with their handles. -/
def State.liveOf (s : State) (n : Nat) : List (Nat × Strand) :=
  s.strands.filter fun e => e.2.id.launch.toNat = n && e.2.id.state ≠ 7

/-- A node by its index. -/
def State.node (s : State) (n : Nat) : Node := SMap.get {} s.chuck.nodes n

/-- A node replaced. -/
def State.setNode (s : State) (n : Nat) (v : Node) : State :=
  { s with chuck := { s.chuck with nodes := SMap.set {} s.chuck.nodes n v } }

/-! ### The launch parameter block -/

/-- A field of an LPB (spec R21). -/
def lpbF (l : BitVec 2048) (lo len : Nat) : Nat := bfld l lo len

/-- The context-store entries a creation needs (spec R135). -/
def State.creationNeeds (s : State) : Creation → Nat
  | .handler _ _ _ => 1
  | .stage x _ => match (s.rlc x).head with
    | some r => (s.rlc x).stageCount r
    | none => 0
  | .spawn _ _ => 1
  | .gang n _ => lpbF (s.node n).lpb 24 7

/-- Waiting creations whose entries are free (spec R135). -/
def State.servable (s : State) : List Creation := s.chuck.waiting.filter fun c => decide (s.creationNeeds c ≤ s.entriesFree)

/-- `n` entries are free for a creation of priority `prio` that begins now: no waiting one is served before it (spec R135). -/
def State.entriesFor (s : State) (n prio : Nat) : Bool :=
  decide (n ≤ s.entriesFree) && s.servable.all fun c => decide (c.prio < prio)

/-- The gang count of an LPB. -/
def lpbGangs (l : BitVec 2048) : Nat := lpbF l 32 32

/-- The strand count of an LPB. -/
def lpbNstr (l : BitVec 2048) : Nat := lpbF l 24 7

/-- The initial stage of an LPB. -/
def lpbStage0 (l : BitVec 2048) : Nat := lpbF l 16 8

/-- The successors an LPB names. -/
def lpbSucc (l : BitVec 2048) : List Nat := (List.range (lpbF l 544 4)).map fun i => lpbF l (576 + 16 * i) 16

/-- The argument bytes of an LPB: the arguments used, the rest zero. -/
def lpbArgs (l : BitVec 2048) : Nat := lpbF l 768 (64 * lpbF l 704 8)

/-- The frames of the strand of launch-wide number `q` (spec R22). -/
def lpbFrames (l : BitVec 2048) (q : Nat) : Frames :=
  { wsize := lpbF l 171 11, spad := lpbF l 182 10, fsize := lpbF l 160 11, code := BitVec.ofNat 64 (lpbF l 64 64),
    handler := BitVec.ofNat 64 (lpbF l 384 64),
    save := BitVec.ofNat 64 (lpbF l 192 64 + q * lpbF l 256 32 * 256),
    spill := BitVec.ofNat 64 (lpbF l 320 64 + q * lpbF l 288 32 * 256),
    spstride := lpbF l 288 32, svstride := lpbF l 256 32 }

/-- The frames that LPB strides give at a save frame followed by its spill stack (spec R120, R296). -/
def lpbFramesAt (l : BitVec 2048) (save : Nat) : Frames :=
  { lpbFrames l 0 with
    save := BitVec.ofNat 64 save, spill := BitVec.ofNat 64 (save + lpbF l 256 32 * 256) }

/-! ### Stage pools -/

/-- The gang counter of a stage of a launch (spec R28). -/
def State.gangCtr (s : State) (n stage : Nat) : Nat :=
  let v := s.node n
  match SMap.find v.gangs stage with
  | some c => c
  | none => if v.kind = .launch && lpbStage0 v.lpb = stage then lpbGangs v.lpb else 0

/-- The next gang index of a stage, modulo 2^20; the counter advances (spec R28). -/
def State.takeGang (s : State) (n stage : Nat) : Nat × State :=
  let c := s.gangCtr n stage
  let v := s.node n
  (c % 2 ^ 20, s.setNode n { v with gangs := SMap.put v.gangs stage ((c + 1) % 2 ^ 20) })

/-- A launch may still bring a strand to a stage below `t` (spec R28): a live strand below, a gang not yet materialised, or a
handler strand waiting to be created. -/
def State.upstream (s : State) (n t : Nat) : Bool :=
  let v := s.node n
  (s.liveOf n).any (fun e => decide (e.2.id.stage.toNat < t))
    || (v.kind = .launch && decide (v.mat < lpbGangs v.lpb) && decide (lpbStage0 v.lpb < t))
    || s.chuck.waiting.any fun w => match w with
        | .handler st _ _ => st.id.launch.toNat = n && decide (st.id.stage.toNat < t)
        | .stage _ _ | .spawn _ _ | .gang _ _ => false

/-- Numbers the records of a formed gang in join order (spec R28). -/
def numberGang (gang count : Nat) : Nat → List Nat → State → State
  | _, [], s => s
  | i, sid :: t, s =>
    numberGang gang count (i + 1) t (s.onStrand sid fun st =>
      { st with id := { st.id with gang := BitVec.ofNat 20 gang, idx := BitVec.ofNat 6 i, nstr := BitVec.ofNat 7 count,
                                   state := 4 } })

/-- Forms one gang from a pool (spec R28). -/
def State.formGang (s : State) (p : Pool) (count : Nat) : State :=
  let sids := p.sids.take count
  let (g, s1) := s.takeGang p.launch p.stage
  let s2 := numberGang g sids.length 0 sids s1
  let rest := { p with sids := p.sids.drop count }
  { s2 with chuck := { s2.chuck with
      pools := s2.chuck.pools.map (fun q => if q.launch = p.launch && q.stage = p.stage then rest else q),
      ready := s2.chuck.ready ++ [{ sids := sids, bound := false }] } }

/-- The next gang of a pool waits while a pre-emption holds one of its records: it would be made RUNNABLE (spec R136). -/
def State.poolHeld (s : State) (sids : List Nat) : Bool :=
  sids.any fun i => match s.strand? i with
    | some t => t.sch.preempt
    | none => false

/-- Forms every gang a pool can form now; `k` bounds the gangs (spec R28). -/
def State.formPool : Nat → Nat → Nat → State → State
  | 0, _, _, s => s
  | k + 1, n, t, s =>
    match s.chuck.pools.find? fun p => p.launch = n && p.stage = t with
    | none => s
    | some p =>
      let nstr := lpbNstr (s.node n).lpb
      if p.sids = [] || s.poolHeld (p.sids.take (max nstr 1)) then s
      else if nstr ≤ p.sids.length then State.formPool k n t (s.formGang p (max nstr 1))
      else if s.upstream n t then s
      else s.formGang p p.sids.length

/-- Forms the gangs that the pools of a launch can form now (spec R28). -/
def State.formPools (s : State) (n : Nat) : State :=
  (s.chuck.pools.filter fun p => p.launch = n).foldl (fun acc p => State.formPool (p.sids.length + 1) n p.stage acc) s

/-- Puts a record into the stage pool of its launch and stage (spec R27, R28). -/
def State.toPool (s : State) (sid n stage : Nat) : State :=
  let s1 := s.onStrand sid fun st => { st with id := { st.id with state := 8 } }
  let pools := s1.chuck.pools
  let pools1 :=
    if pools.any fun p => p.launch = n && p.stage = stage then
      pools.map fun p => if p.launch = n && p.stage = stage then { p with sids := p.sids ++ [sid] } else p
    else pools ++ [{ launch := n, stage := stage, sids := [sid] }]
  State.formPools { s1 with chuck := { s1.chuck with pools := pools1 } } n

/-! ### Word writes of nodes and engines -/

/-- The outcome of a word write: done, stalled on a page-in, or failed with an error-word kind and detail (spec R360). -/
inductive WordRes where
  | ok (s : State)
  | stall (s : State)
  | fail (kind detail : Nat) (s : State)

/-- Writes or adds a word at a VA under a PASID (spec R29, R30, R360). -/
def State.wordWrite (s : State) (w : WordWr) : WordRes :=
  if !(s.isLocal w.va) then .fail 1 0x08 s
  else
    match s.translate w.pasid w.va w.len .write with
    | .error (.pageIn code va) => .stall (s.pageInEvent w.part w.pasid va code)
    | .error .frozen => .stall s
    | .error (.mem code va) => .fail 1 code (s.nodeSeen w.part w.pasid va code)
    | .error (.parcel _ _) => .fail 4 0x03 s
    | .ok (segs, s1) =>
      let v := if w.add then s1.mem.gather segs + w.val else w.val
      let (m, bad) := s1.mem.scatter segs (v % 2 ^ (8 * w.len))
      if bad = [] then .ok { s1 with mem := m } else .fail 2 0 ((({ s1 with mem := m } : State)).lineEvents w.part bad)

/-- A word write that waits for its page. -/
def State.wordWait (s : State) (w : WordWr) : State := { s with words := s.words ++ [w] }

/-! ### Releases, triggers and completions -/

/-- A node's work failed (spec R342): the `NODE_FAIL` event. -/
def State.nodeFail (s : State) (n cls code ctx seq : Nat) : State :=
  let v := s.node n
  let ty := if v.kind = .copy then 2 else if v.kind = .refine then 5 else if v.kind = .cube then 7 else 0
  s.event v.part v.pasid.toNat 0x26
    (n + ty * 2 ^ 16 + cls % 2 ^ 8 * 2 ^ 24 + code % 2 ^ 16 * 2 ^ 32 + ctx % 2 ^ 16 * 2 ^ 48 + seq % 2 ^ 64 * 2 ^ 64)

/-- What starting a node's work gives: it goes on, it completed at once, or it must be tried again. -/
inductive Started where
  | active (s : State)
  | done (s : State)
  | again (s : State)

/-- Reads `n` local bytes for a node or a packet under a PASID: their value, or the fault (spec R181, R336). -/
def State.readFor (s : State) (pasid va n : Nat) : Except VFault (Nat × State) :=
  if !(s.isLocal va) then .error (.mem 0x04 va)
  else
    match s.translate pasid va n .read with
    | .error f => .error f
    | .ok (segs, s1) =>
      match s1.mem.badSeg segs with
      | some l => .error (.mem 0x00 (64 * l))
      | none => .ok (s1.mem.gather segs, s1)

/-- The code of a fault as a node reports it. -/
def VFault.code : VFault → Nat
  | .mem c _ => c
  | .pageIn c _ => c
  | .parcel _ _ => 0x03
  | .frozen => 0

/-- The class of the trap that a fault of a read would be (spec R124); a line that fails its check has code 0 here. -/
def VFault.cls : VFault → Nat
  | .mem c _ => if c = 0 then 0x09 else 0x08
  | .pageIn _ _ | .frozen => 0x08
  | .parcel _ _ => 0x0C

/-- The kind in the error word that a fault of a read has (spec R220). -/
def VFault.kind : VFault → Nat
  | .mem c _ => if c = 0 then 2 else 1
  | .pageIn _ _ | .frozen => 1
  | .parcel _ _ => 4

/-- A read that a node's start makes does not succeed: it is made again, or the node's work fails (spec R186, R342). -/
def State.startStop (s : State) (v : Node) (f : VFault) (fail : State → Started) : Started :=
  match f with
  | .pageIn code va => .again (s.pageInEvent v.part v.pasid.toNat va code)
  | .frozen => .again s
  | .mem code va => fail (s.nodeSeen v.part v.pasid.toNat va code)
  | .parcel _ _ => fail s

/-- The read of a WAIT node meets a fault: system software is told once of a page or node that is not resident, and of a node with a remote home
(spec R30, R186, R188). -/
def State.waitFault (s : State) (n : Nat) (f : VFault) : State :=
  let v := s.node n
  if v.told = f.code then s
  else
    let s1 := s.setNode n { v with told := f.code }
    match f with
    | .pageIn code va => s1.pageInEvent v.part v.pasid.toNat va code
    | .mem code va => s1.nodeSeen v.part v.pasid.toNat va code
    | .parcel _ _ | .frozen => s1

/-- A COPY node issues its `NESTW` and `COPYN` (spec R342). -/
def State.startCopy (s : State) (n : Nat) (v : Node) : Started :=
  let c := (v.body.getD 0 0).toNat % 65536
  let pasid := v.pasid.toNat
  if 64 ≤ s.copiesOf c then .again s
  else
    match s.readFor pasid (v.body.getD 1 0).toNat 64 with
    | .error f => (s.tried pasid (v.body.getD 1 0).toNat 64 .read).startStop v f fun t => .done (t.nodeFail n f.kind f.code c 0)
    | .ok (d, s1) =>
      let nest : Line := BitVec.ofNat 512 d
      if !(nestOk nest) then .done (s1.nodeFail n 6 0x04 c 0)
      else
        let s2 := { s1 with nests := SMap.set 0 s1.nests c nest }
        let (q, s3) := s2.copyStart c (.node n) none pasid (v.body.getD 2 0) (v.body.getD 3 0) (v.body.getD 4 0) []
        .active (s3.setNode n { s3.node n with st := .active, cmds := [(c, q)] })

/-- A CUBE node issues its nest, descriptors, command and drain (spec R342). -/
def State.startCube (s : State) (n : Nat) (v : Node) : Started :=
  let x := (v.body.getD 0 0).toNat % 4096
  let pasid := v.pasid.toNat
  let w := v.body.getD 4 0
  let dv := v.body.getD 5 0
  let fail (s : State) (cls code : Nat) : Started := .done (s.nodeFail n cls code (4096 + x) 0)
  if 62 < (s.cubeCmdsOf x).length then .again s
  else
    match s.readFor pasid (v.body.getD 1 0).toNat 64 with
    | .error f => (s.tried pasid (v.body.getD 1 0).toNat 64 .read).startStop v f fun t => fail t f.cls f.code
    | .ok (d, s1) =>
      let nest : Line := BitVec.ofNat 512 d
      if !(nestOk nest) then fail s1 6 0x04
      else
      match s1.readFor pasid (v.body.getD 2 0).toNat 32 with
      | .error f => (s1.tried pasid (v.body.getD 2 0).toNat 32 .read).startStop v f fun t => fail t f.cls f.code
      | .ok (da, s2) =>
        let a : BitVec 256 := BitVec.ofNat 256 da
        if !(descOk a) then fail s2 4 0
        else
        match s2.readFor pasid (v.body.getD 3 0).toNat 32 with
        | .error f => (s2.tried pasid (v.body.getD 3 0).toNat 32 .read).startStop v f fun t => fail t f.cls f.code
        | .ok (db, s3) =>
          let b : BitVec 256 := BitVec.ofNat 256 db
          let plane := bbit w 2
          let mOrL := if plane then bfld w 10 3 else bfld w 13 8
          let k := bfld w 21 6 + 1
          let m := bfld w 27 7 + 1
          let cols := bfld w 34 7 + 1
          let slot := if plane then 0x40 + bfld w 10 3 * 8 + bfld w 5 3 else bfld w 5 5
          if !(descOk b) then fail s3 4 0
          else
            match s3.cubeCheck nest a b plane mOrL (bfld w 3 2) m cols k with
            | .error (cls, code) => fail s3 cls code
            | .ok (ls, wd) =>
              let cmd : CubeCmd :=
                { ctx := x, seq := 0, iss := .node n, gate := none, pasid := pasid,
                  kind := .mm ls plane (bbit s3.cube.mode 8 && !plane) wd m cols k, slot := slot, nest := nest, dA := a,
                  dB := b, tables := s3.cube.active }
              let (q1, s4) := s3.cubeQueue cmd
              let (cmds, s5) :=
                if dv = 0 then ([(4096 + x, q1)], s4)
                else
                  let dr : CubeCmd :=
                    { ctx := x, seq := 0, iss := .node n, gate := none, pasid := pasid,
                      kind := .drain dv.toNat (4 * cols) 0 (bbit w 41) m cols [], slot := slot }
                  let (q2, s5) := s4.cubeQueue dr
                  ([(4096 + x, q1), (4096 + x, q2)], s5)
              .active (s5.setNode n { s5.node n with st := .active, cmds := cmds })
where
  /-- The limits `CDESC` sets on a descriptor, and a format in force: none is taken from the ladder (spec R233, R235, R243, R342). -/
  descOk (d : BitVec 256) : Bool :=
    bfld d 0 4 = 0 && bfld d 16 48 = 0 && dLayout d ≠ 3 && dBase d % 64 = 0 && dRstride d % 64 = 0
      && !(dFace d && decide (0x380000 ≤ dBase d))
      && (if dLayout d = 2 then dSva d % 4 = 0 && dSstride d % 4 = 0 else dSva d = 0 && dSstride d = 0)
      && (if dLayout d = 1 then dType d = 0 && dTable d = 0
        else [0, 4, 8, 18, 19, 20, 21, 22, 23, 24].contains (dType d) && (dTable d = 0 || dType d = 24))

/-- A REFINE node queues its block (spec R302, R342); the stage strands join the node under the packet's LPB. -/
def State.startRefine (s : State) (n : Nat) (v : Node) : Started :=
  let x := (v.body.getD 0 0).toNat % 4096
  let pasid := v.pasid.toNat
  if 8 ≤ (s.rlc x).queue.length then .again s
  else
    match s.readFor pasid (v.body.getD 1 0).toNat 128 with
    | .error f =>
      (s.tried pasid (v.body.getD 1 0).toNat 128 .read).startStop v f fun t => .done (t.nodeFail n f.cls f.code (3 * 4096 + x) 0)
    | .ok (d, s1) =>
      let blk : BitVec 1024 := BitVec.ofNat 1024 d
      match blkBad (v.body.getD 1 0).toNat blk with
      | some _ => .done (s1.nodeFail n 4 0 (3 * 4096 + x) 0)
      | none =>
        let (q, s2) := s1.blockQueue x
          { seq := 0, iss := .node n, va := v.body.getD 1 0, blk := blk, pasid := pasid, part := v.part, launch := n,
            stage := lpbStage0 v.lpb, fr := lpbFrames v.lpb 0, cube := lpbF v.lpb 11 1 = 1, gate := none }
        .active (s2.setNode n { s2.node n with st := .active, cmds := [(3 * 4096 + x, q)] })

/-- A READY node begins its work (spec R26, R29, R30). -/
def State.startNode (s : State) (n : Nat) : Started :=
  let v := s.node n
  match v.kind with
  | .launch => .active s
  | .copy => s.startCopy n v
  | .cube => s.startCube n v
  | .refine => s.startRefine n v
  | .wait =>
    let s1 := s.setNode n { v with st := .active }
    if v.sub = 1 then .active s1
    else
      match s1.readFor v.pasid.toNat (v.body.getD 0 0).toNat 8 with
      | .error f => .active ((s1.tried v.pasid.toNat (v.body.getD 0 0).toNat 8 .read).waitFault n f)
      | .ok (_, s2) => .active s2
  | .signal =>
    let w : WordWr :=
      { part := v.part, pasid := v.pasid.toNat, va := (v.body.getD 0 0).toNat, len := 8, val := (v.body.getD 1 0).toNat,
        add := v.sub = 1, after := .signal n }
    match s.wordWrite w with
    | .ok s1 => .done s1
    | .fail _ _ s1 => .done s1
    | .stall s1 => .active ((s1.setNode n { v with st := .active }).wordWait w)

/-- The completion add of a launch node (spec R29). Answers whether the node is DONE now. -/
def State.doneAdd (s : State) (n : Nat) : Bool × State :=
  let v := s.node n
  let va := lpbF v.lpb 448 64
  if va = 0 then (true, s)
  else
    let w : WordWr :=
      { part := v.part, pasid := v.pasid.toNat, va := va, len := 8, val := 1, add := true, after := .launch n }
    match s.wordWrite w with
    | .ok s1 => (true, s1)
    | .fail _ _ s1 => (true, s1)
    | .stall s1 => (false, s1.wordWait w)

/-- The next gang of a launch waits for its context-store entries (spec R135). -/
def State.gangWaits (s : State) (n : Nat) : State :=
  { s with chuck := { s.chuck with
      waiting := s.chuck.waiting ++ [Creation.gang n (lpbF (s.node n).lpb 8 3)] } }

/-- A node whose counter reached 0 becomes READY; answers the successors it releases at once (spec R24, R29, R30). -/
def State.becomeReady (s : State) (n : Nat) : List Nat × State :=
  let v := s.node n
  if v.kind = .launch then
    if lpbGangs v.lpb = 0 then
      let (d, s1) := (s.setNode n { v with st := .triggered }).doneAdd n
      (v.succ, if d then s1.setNode n { s1.node n with st := .done } else s1)
    else ([], (s.setNode n { v with st := .ready }).gangWaits n)
  else
    match (s.setNode n { v with st := .ready }).startNode n with
    | .active s1 => ([], s1)
    | .again s1 => ([], { s1 with chuck := { s1.chuck with starting := s1.chuck.starting ++ [n] } })
    | .done s1 => (v.succ, s1.setNode n { s1.node n with st := .done })

/-- One release reaches a node (spec R24). -/
def State.releaseOne (s : State) (n : Nat) : List Nat × State :=
  let v := s.node n
  let s1 := s.setNode n { v with ctr := v.ctr - 1 }
  match v.st with
  | .free => ([], s1)
  | .created => if v.ctr = 1 then s1.becomeReady n else ([], s1)
  | .ready | .active | .triggered | .done =>
    let p := s1.part v.part
    ([], s1.setPart v.part { p with gerr := if p.gerr = BitVec.allOnes 32 then p.gerr else p.gerr + 1 })

/-- Releases in order; a node that completes at once adds its own (spec R24, R30). -/
def State.releaseAll : Nat → List Nat → State → State
  | 0, _, s => s
  | _ + 1, [], s => s
  | k + 1, n :: t, s =>
    let (more, s1) := s.releaseOne n
    State.releaseAll k (t ++ more) s1

/-- Releases a list of successors; every node can add its own successors once. -/
def State.release (s : State) (l : List Nat) : State := State.releaseAll (l.length + 9 * s.chuck.nodes.length + 1) l s

/-- Tries again the nodes whose work could not start (spec R221, R229, R342). -/
def State.retryStarts (s : State) : State :=
  let l := s.chuck.starting
  l.foldl (fun acc n =>
    match acc.startNode n with
    | .active s1 => s1
    | .again s1 => { s1 with chuck := { s1.chuck with starting := s1.chuck.starting ++ [n] } }
    | .done s1 => (s1.setNode n { s1.node n with st := .done }).release (s1.node n).succ)
    { s with chuck := { s.chuck with starting := [] } }

/-- A node that issues commands, or a SIGNAL or WAIT node, completes (spec R30). -/
def State.nodeDone (s : State) (n : Nat) : State :=
  let v := s.node n
  (s.setNode n { v with st := .done, cmds := [] }).release v.succ

/-- A command of a node is complete; the node is DONE with its last one (spec R30). -/
def State.nodeCmdDone (s : State) (c q : Nat) : State :=
  match s.chuck.nodes.find? fun e => e.2.st = .active && e.2.cmds.contains (c, q) with
  | none => s
  | some (n, v) =>
    let rest := v.cmds.filter (· ≠ (c, q))
    if rest = [] then s.nodeDone n else s.setNode n { v with cmds := rest }

/-- A command completes, with its node (spec R217, R30). -/
def State.finish (s : State) (c n : Nat) (fail : Option (Nat × Nat)) (flags : Nat) : State :=
  ((s.complete c n fail flags).nodeCmdDone c n).retryStarts

/-- A handler strand of a launch waits to be created. -/
def State.handlersWaiting (s : State) (n : Nat) : List Strand :=
  s.chuck.waiting.filterMap fun w => match w with
    | .handler st _ _ => if st.id.launch.toNat = n then some st else none
    | .stage _ _ | .spawn _ _ | .gang _ _ => none

/-- A refinement block whose stage strands join a node is queued or runs (spec R296). -/
def State.blocksOf (s : State) (n : Nat) : Bool := s.rlcs.any fun e => e.2.queue.any fun r => r.launch = n

/-- The issuer of a block has set TRIGGERED: its strand, or what its strand left (spec R120, R296). -/
def State.blockTriggered (s : State) (r : RBlock) : Bool :=
  match r.iss with
  | .strand sid id _ => match s.strand? sid with
    | some t => t.id.triggered
    | none => id.triggered
  | .node _ => false

/-- A refinement block of a node may yet create strands that are not TRIGGERED (spec R29, R120, R296). -/
def State.blocksDelay (s : State) (n : Nat) : Bool :=
  s.rlcs.any fun e => e.2.queue.any fun r => r.launch = n && !(s.blockTriggered r)

/-- The release of a `TRIG` is still queued. -/
def Strand.trigQueued (t : Strand) : Bool := t.q.accs.any fun a => a.act = .trig

/-- A strand counts as triggered for its node: by its own `TRIG`, or by that of the strand it stands in for (spec R29, R128). -/
def Ident.counts (t : Ident) : Bool := t.trigDone || (t.standIn && t.triggered)

/-- The `TRIG` of a strand of the node that an ending trap stopped has still to perform (spec R29, R128). -/
def State.trigLeft (s : State) (n : Nat) : Bool :=
  s.strands.any fun e => e.2.id.launch.toNat = n && e.2.id.state = 7 && e.2.trigQueued

/-- Every strand the node has created or will create has triggered or exited (spec R29). -/
def State.canTrigger (s : State) (n : Nat) : Bool :=
  let v := s.node n
  v.mat = lpbGangs v.lpb && v.stuckU = 0 && !(s.blocksDelay n) && !(s.trigLeft n) && (s.liveOf n).all (fun e => e.2.id.counts)
    && (s.handlersWaiting n).all fun t => t.id.counts

/-- Every strand of the node has exited (spec R29). -/
def State.canComplete (s : State) (n : Nat) : Bool :=
  let v := s.node n
  v.mat = lpbGangs v.lpb && v.stuck = 0 && !(s.blocksOf n) && (s.liveOf n).isEmpty && (s.handlersWaiting n).isEmpty

/-- A launch node triggers and completes when its strands allow it (spec R29). -/
def State.nodeCheck (s : State) (n : Nat) : State :=
  let v := s.node n
  if v.kind ≠ .launch || (v.st ≠ .active && v.st ≠ .triggered) then s
  else
    let s1 := if v.st = .active && s.canTrigger n then (s.setNode n { v with st := .triggered }).release v.succ else s
    if s1.canComplete n && (s1.node n).st = .triggered then
      let (d, s2) := s1.doneAdd n
      if d then s2.setNode n { s2.node n with st := .done } else s2
    else s1

/-- After a strand of a launch left or moved: pools form, the node is checked (spec R28, R29). -/
def State.afterStrand (s : State) (n : Nat) : State := (s.formPools n).nodeCheck n

end Sys2Proof.Machine
end

