-- ==== Sys2Proof/Machine/Ops.lean ====
section
/-! DEFINITION. The shared operations of a strand: taking a trap and returning from one (spec R124 to R130, R144), suspension
and its save (spec R20, R44, R131 to R134), the issue of an instruction (`runOp`), registers (spec R36 to R56), and memory
accesses (spec R185 to R196). -/

namespace Sys2Proof.Machine

/-! ### The strand at hand -/

/-- The strand that issues. -/
def State.me (s : State) : Strand := (s.strand? s.cur).getD {}

/-- The issuing strand replaced. -/
def State.setMe (s : State) (t : Strand) : State := s.setStrand s.cur t

/-- The strand as the words of the bundle read it (spec R83, R105). -/
def State.view (s : State) : Strand := s.issue.snap.getD s.me

/-- The core of the issuing strand. -/
def State.core (s : State) : Nat := s.view.place.key

/-! ### Control registers that say who a strand is -/

/-- `cr.self` (spec R17). -/
def Strand.self (t : Strand) : W64 :=
  t.id.launch ++ (if t.place.cic then 0 else t.place.core) ++ (if t.place.cic then 0 else t.place.cluster) ++ t.id.bprio
    ++ t.id.eprio ++ t.id.stage ++ t.id.gang ++ t.id.idx

/-- `cr.gang` (spec R17). -/
def Strand.gangReg (t : Strand) : W64 :=
  0#35 ++ BitVec.ofBool t.place.cic ++ t.id.ngangs ++ t.id.nstr

/-! ### Save frames -/

/-- The LOOPN state as the save frame lays it out (spec R133). -/
def LoopSt.bits (l : LoopSt) : Nat :=
  let ix (i : Nat) : Nat := l.idx.getD i 0 % 65536
  let w0 := b2n l.act * 2 ^ 63 + b2n l.pend * 2 ^ 62 + l.n.toNat * 2 ^ 32 + l.first.toNat
  let w2 := ix 0 + ix 1 * 2 ^ 16 + ix 2 * 2 ^ 32 + ix 3 * 2 ^ 48
  let w3 := ix 4 + ix 5 * 2 ^ 16
  w0 + l.last.toNat * 2 ^ 64 + w2 * 2 ^ 128 + w3 * 2 ^ 192 + l.base0.toNat * 2 ^ 256 + l.base1.toNat * 2 ^ 320
    + l.desc.toNat * 2 ^ 512

/-- The control area of a save frame (spec R133, R238). -/
def Strand.controlArea (t : Strand) : Nat :=
  t.win.base % 2 ^ 32 + t.win.f * 2 ^ 32 + b2n t.win.ep * 2 ^ 43 + t.wi % 4 * 2 ^ 44
    + (t.views.s.toNat + t.views.v.toNat * 2 ^ 64 + t.views.t.toNat * 2 ^ 128 + t.views.a.toNat * 2 ^ 192) * 2 ^ 64
    + (t.fp.rm.toNat + t.fp.flags.toNat * 2 ^ 64 + t.fp.trapen.toNat * 2 ^ 128) * 2 ^ 320
    + (t.sch.phC.toNat + t.sch.phB.toNat * 2 ^ 64 + t.sch.phA.toNat * 2 ^ 128) * 2 ^ 512
    + t.sch.waitspin.toNat * 2 ^ 704 + t.win.lostlo % 2 ^ 32 * 2 ^ 768 + t.win.losthi % 2 ^ 32 * 2 ^ 800
    + b2n t.win.lost * 2 ^ 832 + t.loop.bits * 2 ^ 1024 + t.trap.trec.toNat * 2 ^ 2048 + t.trap.ret.toNat * 2 ^ 2560
    + b2n t.trap.shadowEp * 2 ^ 2624 + t.trap.shadowLoop.bits * 2 ^ 3072
    + (if t.id.cls then (t.shNest.toNat + t.shA.toNat * 2 ^ 512 + t.shB.toNat * 2 ^ 768) * 2 ^ 4096 else 0)

/-- The window unit at which a rotating region puts a unit (spec R49). -/
def Rot.map (r : Rot) (u : Nat) : Nat :=
  if r.size ≠ 0 && decide (r.base ≤ u) && decide (u < r.base + r.size) then r.base + (u - r.base + r.pos) % r.size else u

/-- The allotment unit of a window unit, without the rotating region (spec R36). -/
def Strand.rawUnit (t : Strand) (u : Nat) : Nat := (t.win.base + u) % t.fr.wsize

/-- The allotment unit of a window unit a name reaches (spec R36, R49). -/
def Strand.unit (t : Strand) (u : Nat) : Nat := t.rawUnit (t.rot.map u)

/-- A unit of the allotment. -/
def Strand.regUnit (t : Strand) (u : Nat) : Vec := SMap.get 0 t.regs u

/-- A window unit is dead (spec R50). -/
def Strand.deadUnit (t : Strand) (u : Nat) : Bool :=
  t.rot.size ≠ 0 && decide (t.rot.base ≤ u) && decide (u < t.rot.base + t.rot.size) && t.rot.dead.contains (u - t.rot.base)

/-- The 8 KiB blocks a save names, as a bitmap: every block in a full save, else those `PHINT` names, clipped to the window
(spec R131, R132). -/
def Strand.saveBlocks (t : Strand) (full : Bool) : Nat :=
  let all := 2 ^ ((t.win.f + 31) / 32) - 1
  if full then all else t.sch.phA.toNat &&& all

/-- A scratchpad byte offset lies in a `PHINT` range (spec R141). -/
def inRange (r : W64) (y : Nat) : Bool := decide (bfld r 0 20 ≤ y) && decide (y < bfld r 0 20 + bfld r 20 20)

/-- A scratchpad word is saved (spec R131, R132). -/
def Strand.savesWord (t : Strand) (full : Bool) (w : Nat) (v : SWord) : Bool :=
  !v.freed && (full || inRange t.sch.phB (8 * w) || inRange t.sch.phC (8 * w))

/-- The scratchpad lines a save writes: those that hold a word it saves. Ranges are whole lines; the place of a freed word beside a
saved one takes zeros, for save writes cover whole lines (spec R131, R133, R141; log entry 82). -/
def Strand.saveLines (t : Strand) (full : Bool) : List Nat :=
  (List.range (16 * t.fr.spad)).filter fun l =>
    (rangeFrom (8 * l) 8).any fun w => t.savesWord full w (SMap.get {} t.scr w)

/-- The bytes of a scratchpad line; a line is saved with its check (spec R193). -/
def Strand.spadLine (t : Strand) (l : Nat) : Nat :=
  (List.range 8).foldl (fun a i => a + (SMap.get {} t.scr (8 * l + i)).data.toNat * 2 ^ (64 * i)) 0

/-- The window units a save writes (spec R131). -/
def Strand.saveUnits (t : Strand) (full : Bool) : List Nat :=
  (List.range t.win.f).filter fun u => (t.saveBlocks full).testBit (u / 32) && !t.deadUnit u

/-- The record's live field: the blocks a save writes (spec R132). -/
def Strand.liveBlocks (t : Strand) (full : Bool) : Nat := (t.saveUnits full).foldl (fun a u => a ||| 2 ^ (u / 32)) 0

/-- The registers kept over a suspension: the units saved (spec R20). -/
def Strand.keptRegs (t : Strand) (full : Bool) : SMap Vec :=
  (t.saveUnits full).foldl (fun m u => SMap.set 0 m (t.rawUnit u) (t.regUnit (t.rawUnit u))) []

/-- The scratchpad kept over a suspension (spec R131). -/
def Strand.keptScr (t : Strand) (full : Bool) : SMap SWord :=
  t.scr.filter fun e => e.2.freed || t.savesWord full e.1 e.2

/-- The context-store entry of a strand (spec R134). -/
def Strand.ctxEntry (t : Strand) : BitVec 131072 :=
  let o := (List.range 8).foldl (fun a i => a + (SMap.get 0 t.files.o i).toNat * 2 ^ (2048 * i)) 0
  let valid := t.scr.foldl (fun a e => if e.2.valid then a ||| 2 ^ e.1 else a) 0
  BitVec.ofNat 131072 (o + t.files.lv.toNat * 2 ^ 16384 + t.files.lm.toNat * 2 ^ 18432 + t.files.ls.toNat * 2 ^ 20480
    + t.files.lx.toNat * 2 ^ 20544 + valid * 2 ^ 32768)

/-- What stops a save (spec R44, R133). -/
inductive SaveRes where
  /-- done -/
  | ok (s : State)
  /-- a page-in: the strand waits with its slot held -/
  | wait (s : State)
  /-- the save frame cannot be written: the ending trap -/
  | fail (i : TrapInfo) (s : State)

/-- Spills one unit of a strand at its logical offset; the code is the `MEMORY` code of a spill that cannot be made, 0 when it
lies past the stack, in a parcel, or meets a failing check (spec R42 to R44). -/
inductive SpillRes where
  | ok (t : Strand) (s : State)
  | wait (va code : Nat)
  | frozen
  | lost (code : Nat) (s : State)

/-- The spill-stack VA of a logical unit (spec R36). -/
def Strand.spillVa (t : Strand) (l : Nat) : Nat := (t.fr.spill.toNat + 256 * l) % 2 ^ 64

/-- The bytes of a logical unit lie past the spill stack (spec R42). -/
def Strand.pastStack (t : Strand) (l : Nat) : Bool := decide (t.fr.spstride * 256 < 256 * l + 256)

/-- Queues a store of at most 256 bytes to a remote VA (spec R190). -/
def Strand.sendStore (t : Strand) (va n v : Nat) : Strand :=
  let a : Access :=
    { id := t.q.next, q := .store, act := .store [] [{ off := 0, va := BitVec.ofNat 64 va, len := n }] (BitVec.ofNat 2048 v) }
  { t with q := { t.q with accs := t.q.accs ++ [a], next := t.q.next + 1 } }

/-- Queues the stores of a run of bytes to a remote VA, `k` runs of 256 bytes at most (spec R190). -/
def Strand.sendRun (t : Strand) (k va n v : Nat) : Strand :=
  (List.range k).foldl (fun u i =>
    if 256 * i < n then u.sendStore (va + 256 * i) (min 256 (n - 256 * i)) (nfld v (2048 * i) 2048) else u) t

/-- Writes a logical unit to the spill stack; to a remote one it travels as a fabric write (spec R42, R190). -/
def State.spillUnit (s : State) (t : Strand) (l : Nat) : SpillRes :=
  if t.pastStack l then .lost 0 s
  else if !(s.isLocal (t.spillVa l)) then .ok (t.sendRun 1 (t.spillVa l) 256 (t.regUnit (l % t.fr.wsize)).toNat) s
  else
    match s.translate t.id.pasid.toNat (t.spillVa l) 256 .write with
    | .error (.pageIn c va) => .wait va c
    | .error .frozen => .frozen
    | .error (.mem c va) => .lost c (s.nodeSeen t.id.part t.id.pasid.toNat va c)
    | .error (.parcel _ _) => .lost 0 s
    | .ok (segs, s1) =>
      let (m, bad) := s1.mem.scatter segs (t.regUnit (l % t.fr.wsize)).toNat
      if bad = [] then .ok t { s1 with mem := m } else .lost 0 s1

/-- A save waits for a page, with its page-in event, or for a freeze to end (spec R44, R133, R186). -/
def State.saveWaits (s : State) (t : Strand) (page : Option (Nat × Nat)) : State :=
  match page with
  | some (va, c) => s.pageInEvent t.id.part t.id.pasid.toNat va c
  | none => s

/-- Spills units `l, l+1, …` below the base in a suspension; answers the first unit lost with its code, or the state in which the save waits;
what it has written stays (spec R44). -/
def spillBelow : Nat → Nat → Strand → State → Except State (Strand × State × Option (Nat × Nat))
  | 0, _, t, s => .ok (t, s, none)
  | k + 1, l, t, s =>
    match s.spillUnit t l with
    | .ok t1 s1 => spillBelow k (l + 1) t1 s1
    | .wait va c => .error (s.saveWaits t (some (va, c)))
    | .frozen => .error s
    | .lost c s1 => .ok (t, s1, some (l, c))

/-- The lines of segments take a check that fails, as the line they copy has (spec R193). -/
def Mem.spoil (m : Mem) (segs : List Seg) : Mem := { m with bad := (segs.flatMap fun g => linesOf g.pa g.len) ++ m.bad }

/-- Writes runs of whole lines of a save frame: offset in the frame, count, value, whether their check holds (spec R133); a remote frame is
written by fabric writes, which carry no line that fails its check (spec R190, R193). A fault comes with what was written and walked before it. -/
def saveRuns (base : Nat) : List (Nat × Nat × Nat × Bool) → Strand → State → Except (VFault × State) (Strand × State)
  | [], t, s => .ok (t, s)
  | (off, n, v, good) :: r, t, s =>
    let va := (base + off) % 2 ^ 64
    if !(s.isLocal va) then saveRuns base r (if good then t.sendRun 4 va n v else t) s
    else
      match s.translate t.id.pasid.toNat va n .write with
      | .error f => .error (f, s.tried t.id.pasid.toNat va n .write)
      | .ok (segs, s1) =>
        let m := (s1.mem.scatter segs v).1
        saveRuns base r t { s1 with mem := if good then m else m.spoil segs }

/-- The runs of a save frame: the control area, the window units and the scratchpad lines saved (spec R133). -/
def Strand.saveImage (t : Strand) (full : Bool) : List (Nat × Nat × Nat × Bool) :=
  (0, 1024, t.controlArea, true) ::
    ((t.saveUnits full).map fun u => (1024 + 256 * u, 256, (t.regUnit (t.rawUnit u)).toNat, true))
    ++ (t.saveLines full).map fun l => (1024 + 256 * t.fr.wsize + 64 * l, 64, t.spadLine l, !(t.scrBad.contains l))

/-- The ending trap of a save write that failed at a VA: a `MEMORY` fault with the level reached and the last entry read, or `PARCEL_ONLY`
with the slot and the offset in it (spec R133, R185, R293). -/
def State.saveTrap (s : State) (pasid : Nat) : VFault → TrapInfo
  | .mem c va =>
    let (lvl, pte) := match s.mem.walk pasid va .write with
      | .error f => (f.lvl, f.pte)
      | .ok _ => (0, 0)
    { cls := 0x08, code := c, va := BitVec.ofNat 64 va, aux0 := BitVec.ofNat 64 (1 + 16 * lvl), aux1 := pte }
  | .parcel x va =>
    let base := (SMap.get {} s.slots x).base.toNat
    { cls := 0x0C, code := 0x03, va := BitVec.ofNat 64 (max va base), aux0 := BitVec.ofNat 64 x
      aux1 := BitVec.ofNat 64 (max va base - base) }
  | .pageIn c va => { cls := 0x08, code := c, va := BitVec.ofNat 64 va }
  | .frozen => { cls := 0x08, code := 0 }

/-- The latches of the strand's core that hold its bytes are invalidated (spec R52). -/
def State.dropLatches (s : State) (sid : Nat) : State :=
  { s with cores := s.cores.map fun e =>
      (e.1, { e.2 with latches := e.2.latches.filter fun l => match l.2 with
                | some x => x.sid ≠ sid
                | none => false }) }

/-- The context-store entry of a strand that gives up its slot goes to the store that `cr.chuck.ctx` names (spec R134; log entry 17). -/
def State.storeEntry (s : State) (sid : Nat) (e : BitVec 131072) : State :=
  let s1 : State := { s with chuck := { s.chuck with store := SMap.set 0 s.chuck.store sid e } }
  let base := bfld s.chuck.ctx 16 48 * 65536
  if base = 0 then s1
  else
    match s1.translate Config.ctxPasid ((base + 16384 * (Config.ctxPlace sid % s.entries)) % 2 ^ 64) 16384 .write with
    | .ok (segs, s2) => { s2 with mem := (s2.mem.scatter segs e.toNat).1 }
    | .error _ => s1

/-- The spills and the save frame of a suspension (spec R20, R44, R131 to R134). After a second loss the code kept for `SPILL_LOST` is that of
the latest one (log entry 83). -/
def State.saveStrand (s : State) (sid : Nat) (t : Strand) (reason : Nat) (full : Bool) : SaveRes :=
  match spillBelow (t.win.base - t.win.lo) t.win.lo t s with
  | .error s1 => .wait s1
  | .ok (t0, s1, lost) =>
    let w := match lost with
      | none => t.win
      | some (l, c) =>
        { t.win with
          lost := true, lostlo := if t.win.lost then min t.win.lostlo l else l
          losthi := if t.win.lost then max t.win.losthi t.win.base else t.win.base
          lostCode := c }
    let t1 := { t0 with win := w }
    match saveRuns t.fr.save.toNat (t1.saveImage full) t1 s1 with
    | .error (.pageIn c va, s2) => .wait (s2.saveWaits t (some (va, c)))
    | .error (.frozen, s2) => .wait s2
    | .error (.mem c va, s2) =>
      .fail (s2.saveTrap t.id.pasid.toNat (.mem c va)) (s2.nodeSeen t.id.part t.id.pasid.toNat va c)
    | .error (.parcel x va, s2) => .fail (s2.saveTrap t.id.pasid.toNat (.parcel x va)) s2
    | .ok (t1, s2) =>
      let t2 : Strand :=
        { t1 with
          id := { t1.id with reason := reason, full := full, live := BitVec.ofNat 32 (t1.liveBlocks full), state := 3 }
          place := { t1.place with resident := false }
          regs := t1.keptRegs full, scr := t1.keptScr full, vpend := [], pkt := none
          win := { t1.win with lo := t1.win.base, hi := t1.win.base + t1.win.f }
          q := { t1.q with leases := [], waitf := none }
          sch := { t1.sch with stop := none, saving := false, forced := false, age := 0, passed := false, idle := false, idleOn := [] } }
      .ok (((s2.setStrand sid t2).dropLatches sid).storeEntry sid t2.ctxEntry)

/-! ### Traps -/

/-- The trap record (spec R125). -/
def trapRecord (t : TrapInfo) (p : Pos) (self : W64) (cseg : Nat) (nested async : Bool) : BitVec 512 :=
  BitVec.ofNat 512
    (b2n async + b2n nested * 2 + self.toNat * 2 ^ 64 + p.npc.toNat * 2 ^ 152 + p.nwi % 4 * 2 ^ 184 + p.bpc.toNat * 2 ^ 192
      + p.bwi % 4 * 2 ^ 224 + t.code % 2 ^ 16 * 2 ^ 232 + t.cls % 2 ^ 8 * 2 ^ 248 + cseg % 2 ^ 8 * 2 ^ 256
      + t.wi % 2 ^ 8 * 2 ^ 264 + t.fw % 2 ^ 8 * 2 ^ 272 + t.flo % 2 ^ 8 * 2 ^ 280 + t.word.toNat * 2 ^ 288
      + t.va.toNat * 2 ^ 320 + t.aux0.toNat * 2 ^ 384 + t.aux1.toNat * 2 ^ 448)

/-- The class is delivered by ending the strand (spec R124). -/
def endingClass (c : Nat) : Bool := c = 0x09 || c = 0x0F

/-- A handler strand for an ended strand (spec R128), or for a retired issuer (spec R129: then it counts as a spawned child). -/
def handlerStrand (id : Ident) (fr : Frames) (rec_ : BitVec 512) (child : Bool) : Strand :=
  let r := rec_ ||| 1
  let t := newStrand
    { launch := id.launch, gang := id.gang, idx := id.idx, stage := id.stage, nstr := id.nstr, ngangs := id.ngangs,
      cls := id.cls, bprio := id.bprio, triggered := id.triggered, trigDone := id.trigDone, spawned := child,
      handler := true, standIn := true, pasid := id.pasid, part := id.part } fr 0 1 r.toNat
  { t with trap := { trec := r } }

/-- Creates a handler strand, NEW until it is placed: a unit of its own (spec R31, R34, R128). -/
def State.createHandler (s : State) (t : Strand) : Nat × State :=
  let (i, s1) := s.addStrand t
  (i, { s1 with chuck := { s1.chuck with ready := s1.chuck.ready ++ [{ sids := [i], bound := false }] } })

/-- The handler packet of a strand that ended with no handler strand (spec R128). -/
def State.strandFault (s : State) (n : Nat) (pasid : Nat) (rec_ : BitVec 512) : State :=
  s.enqueueTo (some (s.node n).queue) (s.sibling (s.node n).queue) (hpkt rec_.toNat 0 0 pasid (s.node n).queue 0x10)

/-- The refinement context a strand's stage gang belongs to counts the strand out; a strand ended with no handler strand counts
as having raised NV (spec R296). -/
def State.leaveGang (s : State) (sid : Nat) (fl : BitVec 6) : State :=
  { s with rlcs := s.rlcs.map fun e =>
      if e.2.gang.contains sid then (e.1, { e.2 with gang := e.2.gang.filter (· ≠ sid), fl := e.2.fl ||| fl }) else e }

/-- A strand's place in its stage gang taken over by another (spec R128). -/
def State.passGang (s : State) (a b : Nat) : State :=
  { s with rlcs := s.rlcs.map fun e =>
      if e.2.gang.contains a then (e.1, { e.2 with gang := e.2.gang.map fun x => if x = a then b else x }) else e }

/-- The identity of an issuer's strand, as it is when the strand ends. -/
def Issuer.keep (i : Issuer) (sid : Nat) (id : Ident) : Issuer :=
  match i with
  | .strand k old fr => .strand k (if k = sid then id else old) fr
  | .node n => .node n

/-- What a strand leaves incomplete keeps the identity with which it ends: TRIGGERED, stage and gang (spec R120, R128, R129, R296). -/
def State.keepIdent (s : State) (sid : Nat) (id : Ident) : State :=
  { s with
    copies := s.copies.map fun c => { c with iss := c.iss.keep sid id }
    cube := { s.cube with cmds := s.cube.cmds.map fun c => { c with iss := c.iss.keep sid id } }
    rlcs := s.rlcs.map fun e => (e.1, { e.2 with queue := e.2.queue.map fun r => { r with iss := r.iss.keep sid id } }) }

/-- A handler strand is created when a context-store entry is free, and waits otherwise (spec R128, R135). -/
def State.wantHandler (s : State) (t : Strand) (old : Option Nat) : State :=
  if s.entriesFor 1 t.id.bprio.toNat then
    let (i, s1) := s.createHandler t
    match old with
    | some o => s1.passGang o i
    | none => s1
  else { s with chuck := { s.chuck with waiting := s.chuck.waiting ++ [.handler t t.id.bprio.toNat old] } }

/-- An engine trap whose issuer has retired: a handler strand that counts as a spawned child of its node, or a report (spec R129); its record names
no bundle and no core (log entry 106). -/
def State.orphanTrap (s : State) (id : Ident) (fr : Frames) (i : TrapInfo) : State :=
  let n := id.launch.toNat
  let rec_ := trapRecord i {} ({ id := id } : Strand).self 0 false true
  let st := (s.node n).st
  if st = .done || st = .free || fr.handler = 0 then s.strandFault n id.pasid.toNat rec_
  else s.wantHandler (handlerStrand id fr rec_ true) none

/-- The engine traps pending on a strand that retires (spec R129, R254). -/
def State.orphanTraps (s : State) (t : Strand) : State :=
  t.trap.pending.foldl (fun (u : State) e => u.orphanTrap t.id t.fr e.info) s

/-- The strand leaves its slot for good: its record goes once its accesses have performed (spec R34, R128). -/
def State.leaveSlot (s : State) (sid : Nat) (t : Strand) : State :=
  let s1 := s.dropLatches sid
  if t.q.accs = [] then s1.dropStrand sid
  else s1.setStrand sid
    { t with id := { t.id with state := 7 }, place := { t.place with resident := false },
             vpend := [], sch := { t.sch with stop := none } }

/-- An ending trap (spec R128): the strand ends with no release, and a handler strand stands in for it, or Mandrel reports. -/
def State.endStrand (s : State) (sid : Nat) (t : Strand) (rec_ : BitVec 512) : State :=
  let n := t.id.launch.toNat
  let s1 := (s.leaveSlot sid { t with trap := { t.trap with pending := [] } }).keepIdent sid t.id
  if !t.id.handler && t.fr.handler ≠ 0 then
    (s1.wantHandler (handlerStrand t.id t.fr rec_ false) (some sid)).orphanTraps t
  else
    let v := s1.node n
    let s2 := (s1.leaveGang sid (t.fp.flags ||| 1)).setNode n
      { v with stuck := v.stuck + 1, stuckU := v.stuckU + (if t.id.triggered then 0 else 1) }
    ((s2.strandFault n t.id.pasid.toNat rec_).orphanTraps t).formPools n

/-- An engine command of a strand still writes or reads its window or scratchpad (spec R55, R226). -/
def State.engineBusy (s : State) (sid : Nat) : Bool :=
  (s.copies.any fun c => c.iss.sid = sid && (match c.iss with | .strand _ _ _ => true | .node _ => false)
      && bfld c.ctl 4 4 ≠ 0)
    || s.cube.cmds.any fun c => c.iss.sid = sid && (match c.iss with | .strand _ _ _ => true | .node _ => false)
      && (match c.kind with | .drain _ _ sp _ _ _ _ => sp ≠ 0 | _ => false)

/-- A result of the strand has not landed (spec R54, R56). -/
def Strand.pending (t : Strand) : Bool := t.q.accs.any fun a => a.dst.isSome || a.toLm || a.toLx

/-- In-strand handler entry (spec R127). -/
def Strand.enterHandler (t : Strand) (rec_ : BitVec 512) (p : Pos) : Strand :=
  { t with
    trap := { t.trap with trec := rec_, ret := BitVec.ofNat 2 p.bwi ++ p.bpc, shadowEp := t.win.ep, shadowLoop := t.loop }
    win := { t.win with ep := false }, loop := { t.loop with act := false }
    id := { t.id with handler := true }, cseg := 1, pc := 0, wi := 0, vpend := [], pkt := none
    sch := { t.sch with stop := none, waitDone := false } }

/-- Delivers a trap taken on a bundle (spec R124, R127, R128). -/
def State.deliverTrap (s : State) (sid : Nat) (t : Strand) (i : TrapInfo) (p : Pos) : State :=
  let ends := endingClass i.cls || t.id.handler || t.fr.handler = 0
  let rec_ := trapRecord i p t.self t.cseg t.id.handler (ends && !t.id.handler && t.fr.handler ≠ 0)
  if ends then
    if s.engineBusy sid then s.setStrand sid { t with sch := { t.sch with stop := some (.trap i p) } }
    else s.endStrand sid t rec_
  else s.setStrand sid (t.enterHandler rec_ p)

/-- A suspended record that may run again joins the runnable records, unless a pre-emption holds it (spec R34, R119, R136). -/
def State.makeRunnable (s : State) (sid : Nat) : State :=
  match s.strand? sid with
  | none => s
  | some t =>
    if t.id.state ≠ 3 then s
    else if t.sch.preempt then s.setStrand sid { t with sch := { t.sch with held := true } }
    else
      let s1 := s.setStrand sid { t with id := { t.id with state := 4 } }
      { s1 with chuck := { s1.chuck with ready := s1.chuck.ready ++ [{ sids := [sid], bound := true }] } }

/-- A suspension whose target is satisfied by the time its save is done: at once for `SUSPEND` and `YIELD`, a context-store entry granted
meanwhile, a pre-emption that has ended (spec R27, R34, R119, R136). -/
def Strand.wakes (t : Strand) (reason : Nat) : Bool :=
  reason = 1 || reason = 2 || (reason = 8 && !t.sch.preempt) || (reason = 10 && t.sch.grant)

/-- The trap of a save frame that cannot be written stands at the resume position, which its record also names as the next one (spec R133;
log entry 84). -/
def Strand.endedAtSave (t : Strand) (i : TrapInfo) : BitVec 512 :=
  trapRecord i { bpc := t.pc, bwi := t.wi, npc := t.pc, nwi := t.wi } t.self t.cseg t.id.handler (!t.id.handler && t.fr.handler ≠ 0)

/-- Stores of the strand stand before the stores of a suspension in its queue: these wait for them, but not for one that only goes to remote
bytes, nor while a hold set keeps a send of the strand (spec R42, R133, R195, R353; log entry 102). -/
def State.storesAhead (s : State) (sid : Nat) (t : Strand) : Bool :=
  decide (s.heldIds sid = []) && t.q.accs.any fun a => match a.act with
    | .store [] _ _ => false
    | .load _ _ _ | .store _ _ _ | .sload _ _ _ _ | .sstore _ _ _ | .atom _ _ _ _ _ | .ratom _ _ _ _ _ | .bank _ _ _ _ _ _ _
    | .rbank _ _ _ _ _ _ _ | .mark | .spalloc _ _ | .spfree _ _ | .hold _ _ _ | .cmd | .trig | .exit => decide (a.q ≠ .load)

/-- A record is discarded with no release; accesses that it issued before still perform (spec R25). -/
def State.discard (s : State) (sid : Nat) : State :=
  match s.strand? sid with
  | none => s
  | some t =>
    let s1 := s.dropLatches sid
    if t.q.accs = [] then s1.dropStrand sid
    else
      let accs := t.q.accs.map fun a => if a.act = .trig || a.act = .exit then { a with act := .mark } else a
      s1.setStrand sid
        { t with id := { t.id with state := 7 }, place := { t.place with resident := false }
                 q := { t.q with accs := accs, waitf := none }, sch := { t.sch with stop := none, saving := false, grant := false } }

/-- A creation belongs to a node. -/
def Creation.ofNode (n : Nat) (sids : List Nat) : Creation → Bool
  | .handler st _ _ => st.id.launch.toNat = n
  | .spawn sid _ => sids.contains sid
  | .gang k _ => k = n
  | .stage _ _ => false

/-- The engine traps pending on the records of a node that are discarded have no strand left to go to (spec R25, R129). -/
def State.reportTraps (s : State) (n : Nat) (l : List (Nat × Strand)) : State :=
  l.foldl (fun (u : State) e => e.2.trap.pending.foldl (fun (w : State) x =>
    w.strandFault n e.2.id.pasid.toNat (trapRecord x.info {} e.2.self 0 false true)) u) s

/-- The records of a node that Chuck holds are discarded, with what waits for them and what is reserved for them; a strand that has exited keeps the
slot that an engine still writes to (spec R25, R55). -/
def State.dropRecords (s : State) (n : Nat) : State :=
  let l := s.strands.filter fun e => e.2.id.launch.toNat = n && !e.2.gone && !e.2.place.resident
  let sids := l.map Prod.fst
  let s1 := (sids.foldl (fun (t : State) i => t.discard i) s).reportTraps n l
  let k := s1.chuck
  { s1 with chuck := { k with
    pools := k.pools.filter fun q => q.launch ≠ n
    ready := k.ready.filter fun u => !(u.sids.any sids.contains)
    waiting := k.waiting.filter fun c => !(c.ofNode n sids)
    reserved := k.reserved.filter fun r => r.2.2 || !(sids.contains r.2.1) } }

/-- Carries out what a stopped strand waits to do, once its results have landed (spec R56). -/
def State.settleStop (s : State) (sid : Nat) : State :=
  match s.strand? sid with
  | none => s
  | some t =>
    match t.sch.stop with
    | none => s
    | some r =>
      if t.pending || t.sch.saving then s
      else
        match r with
        | .trap i p => s.deliverTrap sid t i p
        | .suspend reason full =>
          if s.engineBusy sid || s.storesAhead sid t then s
          else
            match s.saveStrand sid t reason full with
            | .ok s1 => if t.wakes reason then s1.makeRunnable sid else s1
            | .wait s1 => s1.onStrand sid fun u => { u with sch := { u.sch with saving := true } }
            | .fail i s1 => s1.endStrand sid t (t.endedAtSave i)
        | .stage =>
          if t.q.accs ≠ [] || s.heldIds sid ≠ [] || s.engineBusy sid then s
          else
            match s.saveStrand sid t 9 false with
            | .ok s1 =>
              let st := t.id.stage + 1
              let s2 := s1.onStrand sid fun u => { u with id := { u.id with stage := st, gang := 0, idx := 0 } }
              ((s2.leaveGang sid t.fp.flags).toPool sid t.id.launch.toNat st.toNat).afterStrand t.id.launch.toNat
            | .wait s1 => s1.onStrand sid fun u => { u with sch := { u.sch with saving := true } }
            | .fail i s1 => s1.endStrand sid t (t.endedAtSave i)

/-- Carries out what a stopped strand waits to do; in a partition that is torn down its record is then discarded (spec R56, R339). -/
def State.settle (s : State) (sid : Nat) : State :=
  match s.strand? sid with
  | none => s
  | some t =>
    if (s.part t.id.part).st = 2 then (s.settleStop sid).dropRecords t.id.launch.toNat else s.settleStop sid

/-- Every stopped strand carries out what it can: an engine command or a held send that it waited for is gone (spec R56). -/
def State.settleAll (s : State) : State :=
  s.strands.foldl (fun t e => if e.2.sch.stop.isSome then t.settle e.1 else t) s

/-- A strand is told to stop, and does at once what it can (spec R56). -/
def State.stopStrand (s : State) (sid : Nat) (r : StopReq) : State :=
  (s.onStrand sid fun t => { t with sch := { t.sch with stop := some r }, q := { t.q with waitf := none } }).settle sid

/-- A wait not satisfied at once: the strand spins in its slot, or suspends at once when `cr.waitspin` is 0 or a pre-emption
reached it (spec R32, R136). -/
def State.beginWait (s : State) (kind ctx : Nat) (val : W64) (reason : Nat) : State :=
  let s1 := s.onStrand s.cur fun t =>
    { t with id := { t.id with state := 2, wkind := kind, wctx := ctx, wval := val, reason := reason } }
  if s.me.sch.waitspin = 0 || s.me.sch.preempt then s1.stopStrand s.cur (.suspend reason false) else s1

/-- A pending engine trap taken out once it is delivered: its aux words name it (spec R129). -/
def dropETrap (i : TrapInfo) : List ETrap → List ETrap
  | [] => []
  | e :: r =>
    if e.info.cls = i.cls && e.info.code = i.code && e.info.aux0 = i.aux0 && e.info.aux1 = i.aux1 then r else e :: dropETrap i r

/-- A `TABLE_CONFIG` trap of a node whose entry names a remote home: system software receives an event too (spec R188). -/
def State.remoteNode (s : State) (t : TrapInfo) : Bool :=
  t.cls = 0x08 && t.code = 0x08 && s.mem.remoteNode s.me.id.pasid.toNat t.va.toNat

/-- What a bundle that stops does to the machine as it stood before the bundle (spec R127, R130, R32). `issue.abort` says so
to the step. -/
def State.applyStop (s : State) (x : Stop) : State :=
  let s0 := { s with issue := { s.issue with abort := some x } }
  match x with
  | .stall | .own => s0
  | .waitf k => s0.onStrand s.cur fun t => { t with q := { t.q with waitf := some k } }
  | .trap t =>
    let s1 := if s.remoteNode t then s0.pageInEvent s.me.id.part s.me.id.pasid.toNat t.va.toNat t.code else s0
    let s2 := s1.onStrand s.cur fun u => { u with trap := { u.trap with pending := dropETrap t u.trap.pending } }
    s2.stopStrand s.cur (.trap t s.issue.pos)
  | .pageIn va code =>
    let s1 := s0.pageInEvent s.me.id.part s.me.id.pasid.toNat va.toNat code
    let key := s.mem.faultKey s.me.id.pasid.toNat va.toNat
    (s1.onStrand s.cur fun t => { t with sch := { t.sch with faultVa := va, faultKey := key } }).stopStrand s.cur (.suspend 7 true)
  | .wait k c v r => s0.beginWait k c v r
  | .poolFull prio =>
    let s1 := { s0 with chuck := { s0.chuck with waiting := s0.chuck.waiting ++ [Creation.spawn s.cur prio] } }
    s1.stopStrand s.cur (.suspend 10 false)

/-! ### The issue of an instruction -/

/-- Why a bundle has no effect, and the page-table bits that its walks have set all the same (spec R184). -/
structure Halt where
  why : Stop
  walked : List (Nat × Nat)
  deriving DecidableEq, Repr

/-- An operation of the issuing strand: it answers a value and the state, or the reason the bundle has no effect. -/
abbrev Op (α : Type) : Type := StateT State (Except Halt) α

/-- The bundle has no effect, for a reason. -/
def Op.stop {α : Type} (x : Stop) : Op α := fun s => .error ⟨x, s.issue.walked⟩

/-- A precise trap on the word at hand (spec R15, R125). -/
def Op.raise {α : Type} (t : TrapInfo) : Op α := fun s =>
  .error ⟨.trap { t with wi := s.issue.wi, word := s.issue.word }, s.issue.walked⟩

/-- The bits that the walks of a bundle set stay set where the bundle has no effect: the walker sets them on every walk (spec R184). -/
def State.setBits (s : State) (l : List (Nat × Nat)) : State :=
  l.foldl (fun (t : State) x =>
    { t with mem := t.mem.setPte x.1 x.2, issue := { t.issue with walked := t.issue.walked ++ [x] } }) s

/-- Raises when a condition holds. -/
def Op.raiseIf (c : Bool) (t : TrapInfo) : Op Unit := if c then Op.raise t else pure ()

/-- The bundle is not ready while a condition holds (spec R33, R54). -/
def Op.stallIf (c : Bool) : Op Unit := if c then Op.stop .stall else pure ()

/-- An `ILLEGAL_FIELD` trap of an execution check: the field and the offending value (spec R124, R139). -/
def illegalField (lo w : Nat) (va : W64) : TrapInfo := { cls := 0x04, code := 0, flo := lo, fw := w, va := va }

/-- The meaning of an instruction from its operation: the next state of its effect, or what its stop does (spec R130). -/
def runOp (m : Op Unit) (s : State) : Host.Outcome State Fault Refusal :=
  match m s with
  | .ok (_, s1) => .next s1
  | .error h => .next ((s.setBits h.walked).applyStop h.why)

/-- A change of the issuing strand. -/
def Op.onMe (f : Strand → Strand) : Op Unit := fun s => .ok ((), s.setMe (f s.me))

/-- A value of the strand as the bundle reads it. -/
def Op.look {α : Type} (f : Strand → α) : Op α := fun s => .ok (f s.view, s)

/-- A value of the state. -/
def Op.see {α : Type} (f : State → α) : Op α := fun s => .ok (f s, s)

/-- A change of the state. -/
def Op.change (f : State → State) : Op Unit := fun s => .ok ((), f s)

/-- Draws a free value (log entry 10). -/
def Op.draw : Op Vec := fun s => .ok (Config.freeVec s.free, { s with free := s.free + 1 })

end Sys2Proof.Machine
end

