-- ==== Sys2Proof/Machine/Operands.lean ====
section
/-! DEFINITION. Operands: the names of register space, the operand file and the last-result file, their reads and writes with
interlocks and results in flight, the reuse hint, and every operand form (spec R45 to R54, R83, R104, R105, R150). -/

namespace Sys2Proof.Machine

/-! ### Bytes of the allotment -/

/-- The window unit of an allotment unit (spec R36). -/
def Strand.winUnit (t : Strand) (u : Nat) : Nat := (u + t.fr.wsize - t.win.base % t.fr.wsize) % t.fr.wsize

/-- An allotment unit as a read sees it: a dead unit reads zero (spec R50). -/
def Strand.readUnit (t : Strand) (u : Nat) : Vec := if t.deadUnit (t.winUnit u) then 0 else t.regUnit u

/-- Writes bytes of an allotment unit; the first write to a dead unit zeroes its other bytes (spec R50). -/
def Strand.writeReg (t : Strand) (u off len v : Nat) : Strand :=
  let dead := if t.deadUnit (t.winUnit u) then t.rot.dead.filter (· ≠ t.winUnit u - t.rot.base) else t.rot.dead
  { t with regs := SMap.set 0 t.regs u (bset (t.readUnit u) (8 * off) (8 * len) v), rot := { t.rot with dead := dead } }

/-- Two places share a byte. -/
def Loc.meets : Loc → Loc → Bool
  | .reg u o n, .reg v p m => u = v && decide (o < p + m) && decide (p < o + n)
  | .ofile i _, .ofile j _ => i = j
  | _, _ => false

/-- A place widened to whole 8-byte words, as pending bits count (spec R54). -/
def Loc.words : Loc → Loc
  | .reg u o n => .reg u (o / 8 * 8) ((o + n + 7) / 8 * 8 - o / 8 * 8)
  | .ofile i n => .ofile i n

/-- The bytes of `a` that `b` covers, as a mask over the bytes of `a`. -/
def Loc.cover (a b : Loc) : Nat :=
  match a, b with
  | .reg u o n, .reg v p m =>
    if u = v then
      let lo := max o p
      let hi := min (o + n) (p + m)
      if lo < hi then (2 ^ (hi - lo) - 1) <<< (lo - o) else 0
    else 0
  | .ofile i _, .ofile j _ => if i = j then 2 ^ 256 - 1 else 0
  | _, _ => 0

/-- A byte mask widened to bits: each byte's bit becomes eight. -/
def byteMask : Nat → Nat → Nat
  | 0, _ => 0
  | n + 1, m => (if m % 2 = 1 then 255 else 0) + 256 * byteMask n (m / 2)

/-- The value of a place (spec R46, R47). -/
def Strand.atLoc (t : Strand) : Loc → Nat
  | .reg u o n => bfld (t.readUnit u) (8 * o) (8 * n)
  | .ofile i _ => (SMap.get 0 t.files.o i).toNat

/-- A place written: the low bytes of an operand file entry, the rest zeroed (spec R47). -/
def Strand.putLoc (t : Strand) (l : Loc) (v : Nat) : Strand :=
  match l with
  | .reg u o n => t.writeReg u o n v
  | .ofile i n => { t with files := { t.files with o := SMap.set 0 t.files.o i (BitVec.ofNat 2048 (v % 2 ^ (8 * n))) } }

/-- A place written but for the bytes a mask names (spec R83). -/
def Strand.putLocSkip (t : Strand) (l : Loc) (v : Nat) (skip : BitVec 256) : Strand :=
  if skip = 0 then t.putLoc l v
  else
    match l with
    | .reg u o n =>
      let m := byteMask n skip.toNat
      let old := bfld (t.readUnit u) (8 * o) (8 * n)
      t.writeReg u o n ((old &&& m) ||| ((v &&& (2 ^ (8 * n) - 1)) ^^^ (v &&& m)))
    | .ofile _ _ => t

/-- A place has a pending bit (spec R54). -/
def Strand.pendsAt (t : Strand) (l : Loc) : Bool :=
  t.q.accs.any fun a => match a.dst with
    | some d => d.loc.words.meets l.words
    | none => false

/-- The bytes of a place that a V word still has in flight at a core cycle, as a mask (spec R53). -/
def Strand.flying (t : Strand) (cycle : Nat) (l : Loc) : Nat :=
  t.vpend.foldl (fun m e => match e.loc with
    | some k => if cycle < e.due then m ||| l.cover k else m
    | none => m) 0

/-- `lv` is still in flight (spec R48, R53). -/
def Strand.lvFlying (t : Strand) (cycle : Nat) : Bool := t.vpend.any fun e => e.loc.isNone && decide (cycle < e.due)

/-- No V word is in flight any more (spec R53, R56). -/
def Strand.landed (t : Strand) (cycle : Nat) : Bool := t.vpend.all fun e => decide (e.due ≤ cycle)

/-- The core cycle of the issuing strand. -/
def State.now (s : State) : Nat := s.cycle s.core

/-! ### Places of names -/

/-- A name past the frame traps `VIEW_RANGE`, reporting its field (spec R43, R46). -/
def viewRange (lo : Nat) : TrapInfo := { cls := 0x05, code := 0x03, flo := lo, fw := 6 }

/-- The place of `len` bytes at window offset `off`, none past the frame (spec R37, R46, R49). -/
def Strand.locAt (t : Strand) (off len : Nat) : Option Loc :=
  if t.win.f * 256 < off + len then none else some (.reg (t.unit (off / 256)) (off % 256) len)

/-- The window offset of an `s` name (spec R45). -/
def Strand.sOff (t : Strand) (i : Nat) : Nat := t.views.s.toNat + 8 * i

/-- The window offset of a `v` name (spec R45). -/
def Strand.vOff (t : Strand) (i : Nat) : Nat := t.views.v.toNat + 256 * i

/-- The place of window bytes for an operand of the bundle, or its trap. -/
def Op.window (lo off len : Nat) : Op Loc := fun s =>
  match s.view.locAt off len with
  | some l => .ok (l, s)
  | none => Op.raise (viewRange lo) s

/-- The place of an `s` name or an `o` entry as an 8-byte destination (spec R45, R104). -/
def Op.sDst (f : Spec) (lo : Nat) : Op Loc := fun s =>
  if f.toNat < 48 then Op.window lo (s.view.sOff f.toNat) 8 s else .ok (.ofile (f.toNat - 48) 8, s)

/-- The place of a `v` name or an `o` entry as a 256-byte destination (spec R45, R150). -/
def Op.vDst (f : Spec) (lo : Nat) : Op Loc := fun s =>
  if f.toNat < 48 then Op.window lo (s.view.vOff f.toNat) 256 s else .ok (.ofile (f.toNat - 48) 256, s)

/-! ### Reads -/

/-- A place read by the bundle: it stalls on a pending bit, and bytes in flight read a free value (spec R53, R54; log entry
10). -/
def Op.readLoc (l : Loc) : Op Nat := fun s =>
  if s.view.pendsAt l then Op.stop .stall s
  else
    let m := s.view.flying s.now l
    let v := s.view.atLoc l
    if m = 0 then .ok (v, s)
    else
      let w := byteMask 256 m
      .ok ((v &&& (2 ^ 2048 - 1 - w)) ||| ((Config.freeVec s.free).toNat &&& w), { s with free := s.free + 1 })

/-- `lv` read (spec R48). -/
def Op.readLv : Op Vec := fun s =>
  if s.view.lvFlying s.now then .ok (Config.freeVec s.free, { s with free := s.free + 1 }) else .ok (s.view.files.lv, s)

/-- `lm` read (spec R48). -/
def Op.readLm : Op Vec := fun s =>
  if s.view.files.lmWait.isSome then Op.stop .stall s else .ok (s.view.files.lm, s)

/-- What a specifier of 48 or above gives as 256 bytes; `lane` is the form's own value (spec R104, R110, R150). -/
def Op.readFile (f : Spec) (lane : Vec) : Op Vec := fun s =>
  let n := f.toNat
  if n < 56 then (do let v ← Op.readLoc (.ofile (n - 48) 256); pure (BitVec.ofNat 2048 v) : Op Vec) s
  else if n = 56 then .ok (s.view.files.ls.setWidth 2048, s)
  else if n = 57 then Op.readLv s
  else if n = 58 then Op.readLm s
  else if n = 59 then (if s.view.files.lxWait.isSome then Op.stop .stall s else .ok (s.view.files.lx.setWidth 2048, s))
  else if n = 60 then .ok (0, s)
  else if n = 61 then .ok (BitVec.allOnes 2048, s)
  else .ok (lane, s)

/-- A source read as 64 bits through `vw.s` (spec R104). -/
def Op.readS (f : Spec) (lo : Nat) : Op W64 := fun s =>
  if f.toNat < 48 then
    (do
      let l ← Op.window lo (s.view.sOff f.toNat) 8
      let v ← Op.readLoc l
      pure (BitVec.ofNat 64 v) : Op W64) s
  else (do let v ← Op.readFile f 0; pure (v.setWidth 64) : Op W64) s

/-- A source read as 256 bytes through `vw.v` (spec R150); `lane` is what specifier 62 gives. -/
def Op.readV (f : Spec) (lo : Nat) (lane : Vec) : Op Vec := fun s =>
  if f.toNat < 48 then
    (do
      let l ← Op.window lo (s.view.vOff f.toNat) 256
      let v ← Op.readLoc l
      pure (BitVec.ofNat 2048 v) : Op Vec) s
  else Op.readFile f lane s

/-- Byte j of the lane operand of `BRV` is j (spec R110). -/
def laneBytes : Vec := vpack 8 (List.range 256)

/-! ### The reuse hint -/

/-- The first view-named field of a list of sources: whether it names `vw.v`, and its specifier. -/
def firstNamed (l : List (Bool × Spec)) : Option (Bool × Nat) :=
  (l.find? fun x => decide (x.2.toNat < 48)).map fun x => (x.1, x.2.toNat)

/-- A word with RU set loads its first view-named source into the latch of its port base; what an earlier word of the bundle has written since
invalidates it (spec R52, R83; log entry 21). -/
def Op.hint (ru : Bool) (pb : BitVec 2) (l : List (Bool × Spec)) : Op Unit := fun s =>
  match ru, firstNamed l with
  | true, some (v, i) =>
    match if v then s.view.locAt (s.view.vOff i) 256 else s.view.locAt (s.view.sOff i) 8 with
    | none => .ok ((), s)
    | some loc =>
      let x : Latch := { sid := s.cur, loc := loc, val := BitVec.ofNat 2048 (s.view.atLoc loc) }
      let l := if s.me.atLoc loc = s.view.atLoc loc then some x else none
      let c := SMap.get {} s.cores s.core
      .ok ((), { s with cores := SMap.set {} s.cores s.core { c with latches := SMap.set none c.latches pb.toNat l } })
  | _, _ => .ok ((), s)

/-- A write of a strand's bytes invalidates the latches of its core that hold one of them (spec R52). -/
def State.dropLatchAt (s : State) (sid : Nat) (l : Loc) : State :=
  { s with cores := s.cores.map fun e =>
      (e.1, { e.2 with latches := e.2.latches.filter fun x => match x.2 with
                | some h => h.sid ≠ sid || !(h.loc.meets l)
                | none => false }) }

/-! ### Writes -/

/-- Marks the bytes of accesses of the same bundle that a later word writes (spec R83). -/
def Strand.takeOver (t : Strand) (since : Nat) (l : Loc) : Strand :=
  { t with q := { t.q with accs := t.q.accs.map fun a =>
      match a.dst with
      | some d => if since ≤ a.id && d.loc.meets l then
            { a with dst := some { d with skip := d.skip ||| BitVec.ofNat 256 (d.loc.cover l) } }
          else a
      | none => a } }

/-- A place written at once by the bundle's word at hand (spec R53, R54, R83). -/
def Op.writeLoc (l : Loc) (v : Nat) : Op Unit := fun s =>
  if s.view.pendsAt l then Op.stop .stall s
  else .ok ((), (s.setMe ((s.me.takeOver s.view.q.next l).putLoc l v)).dropLatchAt s.cur l)

/-- The result of an S word: d and `ls` (spec R104). -/
def Op.writeS (d : Spec) (lo : Nat) (v : W64) : Op Unit := do
  let l ← Op.sDst d lo
  Op.writeLoc l v.toNat
  Op.onMe fun t => { t with files := { t.files with ls := v } }

/-- The result of an X word that lands at issue: d and `lx` (spec R48, R54). -/
def Op.writeX (d : Spec) (lo : Nat) (v : W64) : Op Unit := do
  let l ← Op.sDst d lo
  Op.writeLoc l v.toNat
  Op.onMe fun t => { t with files := { t.files with lx := v, lxWait := none } }

/-- The result of an M word that lands at issue: d and `lm` (spec R48, R201). -/
def Op.writeM (d : Spec) (lo : Nat) (v : W64) : Op Unit := do
  let l ← Op.sDst d lo
  Op.writeLoc l v.toNat
  Op.onMe fun t => { t with files := { t.files with lm := v.setWidth 2048, lmWait := none } }

/-- The bound of a `lat` code in core cycles (spec R53). -/
def latCycles (lat : Nat) : Nat := 2 ^ (lat + 1)

/-- The results of V words still in flight at a cycle. -/
def keepFlying (cycle : Nat) (l : List VPend) : List VPend := l.filter fun e => decide (cycle < e.due)

/-- The results in flight with one more: what `lv` holds is the latest word's alone (spec R48, R53). -/
def flyOne (now lat : Nat) (l : List VPend) (d : Loc) : List VPend :=
  ((keepFlying now l).filter fun e => e.loc.isSome) ++ [⟨some d, now + latCycles lat⟩, ⟨none, now + latCycles lat⟩]

/-- A 256-byte result of a V word: d and `lv`, in flight until the bound (spec R48, R53, R150). The bytes are stored at once and read as
undefined until then, so a `ROTATE` that makes their unit dead while they fly comes after them: the unit reads zero (log entry 86). -/
def Op.writeV (d : Spec) (lo : Nat) (lat : Nat) (v : Vec) : Op Unit := do
  let l ← Op.vDst d lo
  Op.writeLoc l v.toNat
  let now ← Op.see State.now
  Op.onMe fun t => { t with files := { t.files with lv := v }, vpend := flyOne now lat t.vpend l }

/-- An 8-byte result of a V word: d through `vw.s`, and `lv` (spec R48, R53, R173). -/
def Op.writeVS (d : Spec) (lo : Nat) (lat : Nat) (v : W64) : Op Unit := do
  let l ← Op.sDst d lo
  Op.writeLoc l v.toNat
  let now ← Op.see State.now
  Op.onMe fun t => { t with files := { t.files with lv := v.setWidth 2048 }, vpend := flyOne now lat t.vpend l }

/-! ### Operand forms -/

/-- Sources a and b of the general body (spec R86, R106). -/
def Op.readAB (a b : Spec) : Op (W64 × W64) := do
  let x ← Op.readS a 10
  let y ← Op.readS b 4
  pure (x, y)

/-- A short S form with two sources (spec R106). -/
def Op.formS (f : SForm) (g : W64 → W64 → W64) : Op Unit := do
  let (a, b) ← Op.readAB f.a f.b
  Op.hint f.ru f.pb [(false, f.a), (false, f.b)]
  Op.writeS f.d 16 (g a b)

/-- A short S form with one source (spec R106). -/
def Op.formS1 (f : SForm) (g : W64 → W64) : Op Unit := do
  let a ← Op.readS f.a 10
  Op.hint f.ru f.pb [(false, f.a)]
  Op.writeS f.d 16 (g a)

/-- An SI-I form (spec R109). -/
def Op.formI (f : IForm) (g : W64 → BitVec 10 → W64) : Op Unit := do
  let a ← Op.readS f.a 13
  Op.hint f.ru f.pb [(false, f.a)]
  Op.writeS f.d 19 (g a f.imm)

end Sys2Proof.Machine
end

