-- ==== Sys2Proof/Machine/Access.lean ====
section
/-! DEFINITION. Memory accesses of a strand: translation under leases with its faults (spec R183 to R190), the refusal of parcel
extents (spec R281), the queues (spec R195), scratchpad ranges and valid bits (spec R191, R202). -/

namespace Sys2Proof.Machine

/-! ### Faults -/

/-- A `MEMORY` trap of an access: kind of access, level reached, last entry read (spec R185). -/
def memTrap (code va kind lvl : Nat) (pte : W64) : TrapInfo :=
  { cls := 0x08, code := code, va := BitVec.ofNat 64 va, aux0 := BitVec.ofNat 64 (kind + 16 * lvl), aux1 := pte }

/-- A fault of a walk as the bundle takes it: a page-in fault, or a trap (spec R185, R186). -/
def Op.walkFault {α : Type} (f : WFault) (va kind : Nat) : Op α :=
  if f.code = 0 then Op.stop .stall
  else if f.code = 0x07 || f.code = 0x09 then Op.stop (.pageIn (BitVec.ofNat 64 va) f.code)
  else Op.raise (memTrap f.code va kind f.lvl f.pte)

/-- The trap of an access that touches the extent of a slot that is not FREE (spec R281, R293). -/
def parcelTrap (code slot : Nat) (off : Nat) (va : Nat) : TrapInfo :=
  { cls := 0x0C, code := code, va := BitVec.ofNat 64 va, aux0 := BitVec.ofNat 64 slot, aux1 := BitVec.ofNat 64 off }

/-- Refuses bytes of a parcel's extent, before any walk (spec R281). -/
def Op.noParcel (va n : Nat) : Op Unit := fun s =>
  match s.parcelAt s.me.id.pasid.toNat va n with
  | none => .ok ((), s)
  | some x =>
    let base := (SMap.get {} s.slots x).base.toNat
    Op.raise (parcelTrap 0x03 x (max va base - base) (max va base)) s

/-! ### Leases and walks -/

/-- A lease covers a VA for a kind of access (spec R187). -/
def Lease.covers (l : Lease) (va : Nat) (kind : WKind) : Bool :=
  l.va = va / 2 ^ l.lg * 2 ^ l.lg && (l.write || kind ≠ .write)

/-- A grant: at most 8 leases, the oldest replaced (spec R187). -/
def Strand.grant (t : Strand) (l : Lease) : Strand :=
  let ls := t.q.leases ++ [l]
  { t with q := { t.q with leases := ls.drop (ls.length - 8) } }

/-- The bundle's walk set bits of a leaf entry (spec R184). -/
def State.noteWalk (s : State) (x : Option (Nat × Nat)) : State :=
  match x with
  | some e => { s with issue := { s.issue with walked := s.issue.walked ++ [e] } }
  | none => s

/-- The physical address of a local VA for the issuing strand: under a lease, or by a walk that grants one (spec R183, R184, R187). -/
def Op.physical (va : Nat) (kind : WKind) (ak : Nat) : Op Nat := fun s =>
  let t := s.me
  let pasid := t.id.pasid.toNat
  if s.mem.frozen pasid va then Op.stop .stall s
  else
    match t.q.leases.find? fun l => l.covers va kind with
    | some l => if s.mem.paBusy (l.pa + (va - l.va)) 1 then Op.stop .stall s else .ok (l.pa + (va - l.va), s)
    | none =>
      match s.mem.find pasid va kind with
      | .error f => Op.walkFault f va ak s
      | .ok d =>
        let base := va / 2 ^ d.lg * 2 ^ d.lg
        if s.mem.paBusy d.pa 1 then Op.stop .stall s
        else
        let l : Lease := { va := base, pa := d.pa - (va - base), lg := d.lg, write := kind = .write }
        .ok (d.pa, (({ s with mem := d.mem } : State).noteWalk d.set).setMe (t.grant l))

/-- An access to bytes of one frame counts in its share window (spec R334). -/
def Op.hit (pa n : Nat) : Op Unit := fun s => .ok ((), { s with mem := s.mem.hit pa n })

/-- Translates the pieces of an access in ascending order (spec R185): local runs, and remote runs of a write; a remote load
traps (spec R190). -/
def Op.translPieces (kind : WKind) (ak : Nat) : List (Nat × Nat × Nat) → Op (List Seg × List RSeg)
  | [] => pure ([], [])
  | (off, va, n) :: t => do
    let here ← Op.see fun s => s.isLocal va
    if here then
      let pa ← Op.physical va kind ak
      Op.hit pa n
      let (l, r) ← Op.translPieces kind ak t
      pure (⟨off, pa, n, va⟩ :: l, r)
    else if kind = .write then
      let (l, r) ← Op.translPieces kind ak t
      pure (l, ⟨off, BitVec.ofNat 64 va, n⟩ :: r)
    else Op.raise (memTrap 0x04 va ak 0 0)

/-- Translates an access of `n` bytes at a VA; `ak` is the access kind of the trap record (spec R185). -/
def Op.transl (va : W64) (n : Nat) (kind : WKind) (ak : Nat) : Op (List Seg × List RSeg) := do
  Op.noParcel va.toNat n
  Op.translPieces kind ak (pieces va.toNat n)

/-! ### The queues -/

/-- Enters an access into its queue in program order (spec R195). Answers its number. -/
def Op.enqueue (q : QKind) (act : Act) (dst : Option RDst) (toLm : Bool) (scope : Nat) (rel : Bool) : Op Nat := fun s =>
  let t := s.me
  let a : Access :=
    { id := t.q.next, q := q, act := act, dst := dst, toLm := toLm, scope := scope, rel := rel, pos := s.issue.pos,
      wi := s.issue.wi, word := s.issue.word }
  let files := if toLm then { t.files with lmWait := some t.q.next } else t.files
  .ok (t.q.next, s.setMe { t with q := { t.q with accs := t.q.accs ++ [a], next := t.q.next + 1 }, files := files })

/-- The access just entered gives `lx` its result (spec R48). -/
def Op.resultLx (i : Nat) : Op Unit := fun s =>
  let t := s.me
  .ok ((), s.setMe { t with
    q := { t.q with accs := t.q.accs.map fun a => if a.id = i then { a with toLx := true } else a }
    files := { t.files with lxWait := some i } })

/-- A place in both queues and nothing else (spec R205). -/
def Op.mark : Op Unit := do
  let _ ← Op.enqueue .both .mark none false 3 false

/-- The destination of a queued result: it stalls while the place is pending (spec R54). -/
def Op.dst (l : Loc) : Op (Option RDst) := do
  let p ← Op.look fun t => t.pendsAt l
  Op.stallIf p
  pure (some { loc := l })

/-- An access that a strand's earlier one in the queues precedes (spec R195). -/
def mayPerform (q : QKind) (before : List Access) : Bool :=
  match q with
  | .load => before.all fun a => a.q = .store
  | .store => before.all fun a => a.q = .load
  | .both => before.isEmpty

/-- Two lists of local runs share no line. -/
def Seg.apart (l m : List Seg) : Bool :=
  l.all fun g => m.all fun h => (linesOf g.pa g.len).all fun x => !((linesOf h.pa h.len).contains x)

/-- A plain access, no acquire or release, passes the earlier ones of its queue: all are plain accesses of memory, and their lines are others.
They perform in either order for another strand, and their own strand cannot tell (spec R195, R197). -/
def Access.passes (a : Access) (before : List Access) : Bool :=
  match a.act with
  | .load l _ _ =>
    !a.rel && before.all fun b => b.q = .store || (match b.act with
      | .load m _ _ => !b.rel && Seg.apart l m
      | .store _ _ _ | .sload _ _ _ _ | .sstore _ _ _ | .atom _ _ _ _ _ | .ratom _ _ _ _ _ | .bank _ _ _ _ _ _ _ | .rbank _ _ _ _ _ _ _
      | .mark | .spalloc _ _ | .spfree _ _ | .hold _ _ _ | .cmd | .trig | .exit => false)
  | .store l [] _ =>
    !a.rel && before.all fun b => b.q = .load || (match b.act with
      | .store m [] _ => !b.rel && Seg.apart l m
      | .load _ _ _ | .store _ _ _ | .sload _ _ _ _ | .sstore _ _ _ | .atom _ _ _ _ _ | .ratom _ _ _ _ _ | .bank _ _ _ _ _ _ _
      | .rbank _ _ _ _ _ _ _ | .mark | .spalloc _ _ | .spfree _ _ | .hold _ _ _ | .cmd | .trig | .exit => false)
  | .store _ _ _ | .sload _ _ _ _ | .sstore _ _ _ | .atom _ _ _ _ _ | .ratom _ _ _ _ _ | .bank _ _ _ _ _ _ _ | .rbank _ _ _ _ _ _ _
  | .mark | .spalloc _ _ | .spfree _ _ | .hold _ _ _ | .cmd | .trig | .exit => false

/-- The accesses of a queue list before a given one, and that one. -/
def accSplit (i : Nat) : List Access → Option (List Access × Access)
  | [] => none
  | a :: t => if a.id = i then some ([], a) else (accSplit i t).map fun r => (a :: r.1, r.2)

/-- Accesses that a fence covers (spec R209). -/
def Act.covered : Act → Bool
  | .mark | .cmd | .trig | .exit | .spalloc _ _ | .spfree _ _ | .hold _ _ _ => false
  | .load _ _ _ | .store _ _ _ | .sload _ _ _ _ | .sstore _ _ _ | .atom _ _ _ _ _ | .ratom _ _ _ _ _
  | .bank _ _ _ _ _ _ _ | .rbank _ _ _ _ _ _ _ => true

/-! ### Waits -/

/-- A wait of R32: it completes when its target is satisfied, now or since it began to wait; else the strand waits. -/
def Op.waitFor (kind ctx : Nat) (val : W64) (reason : Nat) (done : Bool) : Op Unit := do
  let w ← Op.look fun t => t.sch.waitDone
  if w || done then Op.onMe fun t => { t with sch := { t.sch with waitDone := false } }
  else Op.stop (.wait kind ctx val reason)

/-! ### Operands of an address -/

/-- EA := a + b modulo 2^64 (spec R202). -/
def Op.ea (a b : Spec) : Op W64 := do
  let (x, y) ← Op.readAB a b
  pure (x + y)

/-! ### Scratchpad -/

/-- The word of an allotment. -/
def Strand.sword (t : Strand) (w : Nat) : SWord := SMap.get {} t.scr w

/-- The words a run of scratchpad bytes touches (spec R191). -/
def wordsOf (off n : Nat) : List Nat := if n = 0 then [] else rangeFrom (off / 8) ((off + n - 1) / 8 - off / 8 + 1)

/-- A scratchpad access past the allotment traps `SP_RANGE` (spec R202). -/
def Op.spRange (ea : W64) (n ak : Nat) : Op Unit := do
  let k ← Op.look fun t => t.fr.spad
  Op.raiseIf (decide (k * 1024 < ea.toNat + n)) (memTrap 0x06 ea.toNat ak 0 0)

/-- The bytes of a run of the scratchpad as one number: a freed or unwritten word holds its bytes (spec R147, R191). -/
def Strand.spadBytes (t : Strand) (off n : Nat) : Nat :=
  ofBytes ((List.range n).map fun i => BitVec.ofNat 8 (bfld (t.sword ((off + i) / 8)).data (8 * ((off + i) % 8)) 8))

/-- Writes bytes of the scratchpad: each touched word becomes valid and live (spec R147, R191). -/
def Strand.spadPut (t : Strand) : Nat → List Byte → Strand
  | _, [] => t
  | off, b :: r =>
    let w := t.sword (off / 8)
    let v : SWord := { data := bset w.data (8 * (off % 8)) 8 b.toNat, valid := true, freed := false }
    Strand.spadPut { t with scr := SMap.set {} t.scr (off / 8) v } (off + 1) r

/-- The first line of a run of the scratchpad that fails its check (spec R193). -/
def Strand.spadBad (t : Strand) (off n : Nat) : Option Nat := (linesOf off n).find? t.scrBad.contains

/-- Writes a run of the scratchpad line by line: a whole line takes a new check; a partial write into a line that fails its check is
discarded. Answers the failed lines (spec R191, R193). -/
def Strand.spadWrite (t : Strand) (off : Nat) (bs : List Byte) : Strand × List Nat :=
  let whole := (linesOf off bs.length).filter (coversLine off bs.length)
  let lost := (linesOf off bs.length).filter fun l => t.scrBad.contains l && !(whole.contains l)
  let t1 :=
    if lost = [] then t.spadPut off bs
    else
      (linesOf off bs.length).foldl (fun (u : Strand) l =>
        if lost.contains l then u
        else
          let lo := max off (64 * l)
          u.spadPut lo ((bs.drop (lo - off)).take (64 * l + 64 - lo))) t
  ({ t1 with scrBad := t1.scrBad.filter fun l => !(whole.contains l) }, lost)

/-- The host event for a scratchpad line that fails its check: its offset in the allotment, with bit 63 set (spec R193; log entry 26). -/
def State.spadEvent (s : State) (p line : Nat) : State := s.event p 0 0x21 (2 ^ 63 + 64 * line)

/-- Records reads of invalid words in the log of the partition (spec R191). -/
def spLog (t : Strand) (old : W64) (ws : List Nat) : W64 :=
  match ws with
  | [] => old
  | w :: _ =>
    let count := min (bfld old 40 24 + ws.length) 0xFFFFFF
    let first := if bbit old 39 then old else
      BitVec.ofNat 64 (2 ^ 39 + (if t.place.cic then 2 ^ 30 else t.place.cluster.toNat * 2 ^ 34 + t.place.core.toNat * 2 ^ 31)
        + t.place.slot.toNat * 2 ^ 19 + 8 * w % 2 ^ 19)
    bset first 40 24 count

/-- The invalid words of a run (spec R191). -/
def Strand.invalidWords (t : Strand) (off n : Nat) : List Nat := (wordsOf off n).filter fun w => !(t.sword w).valid

/-- A run of the scratchpad with its invalid words zeroed (spec R191). -/
def Strand.spadLogged (t : Strand) (off n : Nat) : Nat :=
  ofBytes ((List.range n).map fun i =>
    let w := t.sword ((off + i) / 8)
    if w.valid then BitVec.ofNat 8 (bfld w.data (8 * ((off + i) % 8)) 8) else 0)

/-- Logs reads of invalid words made for a strand (spec R191); the first since the log was cleared is a host event, whose
rec holds the log (spec R344, log entry 26). -/
def State.logWords (s : State) (t : Strand) (ws : List Nat) : State :=
  let p := s.part t.id.part
  let l := spLog t p.spLog ws
  let s1 := s.setPart t.id.part { p with spLog := l }
  if bbit l 39 && !(bbit p.spLog 39) then s1.event t.id.part t.id.pasid.toNat 0x25 l.toNat else s1

/-- A queued access may change the scratchpad. -/
def Act.touchesSpad : Act → Bool
  | .sstore _ _ _ | .spalloc _ _ | .spfree _ _ => true
  | _ => false

/-- A queued access is a scratchpad store and no more. -/
def Act.isSstore : Act → Bool
  | .sstore _ _ _ => true
  | _ => false

/-- The check of a scratchpad read in TRAP mode at issue (spec R191). While queued accesses may still change the words, the
bundle waits for them; where only stores stand between, the read may also come before them (spec R195, R196). -/
def Op.spValid (ea : W64) (n : Nat) : Op Unit := fun s =>
  let t := s.me
  let bad := t.invalidWords ea.toNat n
  let waits := t.q.accs.filter fun a => a.act.touchesSpad
  let frees := t.q.accs.any fun a => match a.act with
    | .spalloc _ _ | .spfree _ _ => true
    | _ => false
  if (s.part t.id.part).spMode then .ok ((), s)
  else
    match bad with
    | [] => if frees then Op.stop .stall s else .ok ((), s)
    | w :: _ =>
      let trap := Op.raise (memTrap 0x05 (max ea.toNat (8 * w)) 5 0 0) s
      if waits = [] then trap
      else if (t.q.accs.all fun a => a.q ≠ .both) && Config.freeBool s.free 1 then trap
      else Op.stop .stall s

end Sys2Proof.Machine
end

