-- ==== Sys2Proof/Machine/Flags.lean ====
section
/-! DEFINITION. Flags: the six floating-point conditions, their accrual in `cr.fp.flags`, and the rounding mode in force
(spec R69 to R73). -/

namespace Sys2Proof.Machine

/-- The flags as `cr.fp.flags` holds them: NV 1, DZ 2, OF 4, UF 8, NX 16, SAT 32 (spec R69). -/
abbrev FlagSet := Nat

/-- Invalid. -/
def fNV : FlagSet := 1
/-- Divide by zero. -/
def fDZ : FlagSet := 2
/-- Overflow. -/
def fOF : FlagSet := 4
/-- Underflow. -/
def fUF : FlagSet := 8
/-- Inexact. -/
def fNX : FlagSet := 16
/-- Saturated. -/
def fSAT : FlagSet := 32

/-- A flag when a condition holds. -/
def flagIf (c : Bool) (f : FlagSet) : FlagSet := if c then f else 0

/-- The union of the flags of a list of results (spec R72). -/
def flagsOf : List (Nat × FlagSet) → FlagSet
  | [] => 0
  | x :: t => x.2 ||| flagsOf t

/-- Rounding modes (spec R69). -/
inductive RMode where
  | rne
  | rtz
  | rup
  | rdn
  | rna
  deriving DecidableEq, Repr

/-- The mode of a code; codes 5 to 7 are never held (spec R69). -/
def rmodeOf (c : Nat) : RMode :=
  if c = 1 then .rtz else if c = 2 then .rup else if c = 3 then .rdn else if c = 4 then .rna else .rne

/-- The mode a word rounds under: `rne` when its static bit is set, else `cr.fp.rm` (spec R70). -/
def Strand.rmode (t : Strand) (rne : Bool) : RMode := if rne then .rne else rmodeOf t.fp.rm.toNat

/-- Flags ORed into `cr.fp.flags` (spec R72, R154). -/
def Strand.raiseFlags (t : Strand) (f : FlagSet) : Strand :=
  { t with fp := { t.fp with flags := t.fp.flags ||| BitVec.ofNat 6 f } }

/-- Flags raised by the word at hand. -/
def Op.flags (f : FlagSet) : Op Unit := Op.onMe fun t => t.raiseFlags f

end Sys2Proof.Machine
end

