-- ==== Sys2Proof/Machine/Float.lean ====
section
/-! DEFINITION. Floating values: the formats of spec R59 to R65 as exact dyadic values, rounding, overflow, tininess and
flushing (R61, R70, R71), conversions (R58, R64), and the exact operations (R156 to R158, R213, R215). -/

namespace Sys2Proof.Machine

/-! ### Values and formats -/

/-- A value: NaN with its signalling mark, an infinity, or (−1)^neg · m · 2^e, where m = 0 is a signed zero. -/
inductive FVal where
  | nan (sig : Bool)
  | inf (neg : Bool)
  | fin (neg : Bool) (m : Nat) (e : Int)
  deriving DecidableEq, Repr

/-- A binary format: width, mantissa bits, bias (spec R59). -/
structure Fmt where
  w : Nat
  mb : Nat
  bias : Nat
  deriving DecidableEq, Repr

/-- The format of a type code (spec R59, R91). -/
def fmtOf (t : Nat) : Fmt :=
  if t = 16 then ⟨64, 52, 1023⟩ else if t = 17 then ⟨32, 23, 127⟩ else if t = 18 then ⟨16, 10, 15⟩
  else if t = 19 then ⟨16, 7, 127⟩ else if t = 20 then ⟨8, 3, 7⟩ else if t = 21 then ⟨8, 2, 15⟩ else ⟨4, 1, 1⟩

/-- Exponent field bits. -/
def Fmt.eb (f : Fmt) : Nat := f.w - 1 - f.mb

/-- The least normal exponent. -/
def Fmt.emin (f : Fmt) : Int := 1 - (f.bias : Int)

/-- The format has infinities and the NaN codes of IEEE 754: all but `e4m3` and `e2m1` (spec R59). -/
def ieeeLike (t : Nat) : Bool := t ≠ 20 && t ≠ 22

/-- FZI and FZO act on the type (spec R71). -/
def flushable (t : Nat) : Bool := decide (16 ≤ t) && decide (t ≤ 19)

/-- The magnitude code of the largest finite value (spec R59). -/
def maxFin (t : Nat) : Nat :=
  let f := fmtOf t
  if t = 20 then 0x7E else if t = 22 then 7 else (2 ^ f.eb - 1) * 2 ^ f.mb - 1

/-- The magnitude code of infinity, for the formats that have one. -/
def infCode (t : Nat) : Nat := let f := fmtOf t; (2 ^ f.eb - 1) * 2 ^ f.mb

/-- The canonical NaN (spec R60); `e2m1` has none, and gives +0. -/
def canonNaN (t : Nat) : Nat :=
  let f := fmtOf t
  if t = 20 then 0x7F else if t = 22 then 0 else if t = 23 then 0x80 else infCode t + 2 ^ (f.mb - 1)

/-- The sign bit of a format. -/
def signBit (t : Nat) (neg : Bool) : Nat := if neg then 2 ^ ((fmtOf t).w - 1) else 0

/-- A code of a binary format as a value (spec R59, R60). -/
def unpackBin (t x : Nat) : FVal :=
  let f := fmtOf t
  let neg := x.testBit (f.w - 1)
  let e := nfld x f.mb f.eb
  let m := nfld x 0 f.mb
  if ieeeLike t && e = 2 ^ f.eb - 1 then (if m = 0 then .inf neg else .nan (decide (m < 2 ^ (f.mb - 1))))
  else if t = 20 && x % 128 = 127 then .nan false
  else if e = 0 then .fin neg m (f.emin - f.mb)
  else .fin neg (2 ^ f.mb + m) ((e : Int) - f.bias - f.mb)

/-- The significands and scales of the `d8` codes 0x00 to 0x1F: M · 2^−q (spec R63). -/
def d8Low : List (Nat × Nat) :=
  [(0, 0), (2684, 28), (3355, 25), (2307, 22), (2097, 21), (3408, 20), (2884, 19), (4063, 19),
   (2621, 18), (2785, 17), (2130, 16), (2867, 16), (3604, 16), (2171, 15), (2540, 15), (2908, 15)]
  ++ [(3277, 15), (2560, 14), (3482, 14), (2202, 13), (2662, 13), (3123, 13), (3584, 13), (4045, 13),
      (2253, 12), (2483, 12), (2714, 12), (2944, 12), (3174, 12), (3405, 12), (3635, 12), (3866, 12)]

/-- The binary magnitude of a `d8` body: M and q of M · 2^−q (spec R62, R63). -/
def d8Mag (c : Nat) : Nat × Nat :=
  if c < 32 then d8Low.getD c (0, 0) else if c < 64 then (32 + 9 * (c - 32), 5) else (640 + 90 * (c - 64), 6)

/-- A `d8` code as a value (spec R62, R63). -/
def unpackD8 (x : Nat) : FVal :=
  if x % 256 = 0x80 then .nan false
  else let (m, q) := d8Mag (x % 128); .fin (x.testBit 7) m (-(q : Int))

/-- An element of a type as a value; `tab` is the codebook of a `cb4` element (spec R59 to R65). -/
def unpackVal (tab : Nat) (t x : Nat) : FVal :=
  if t = 23 then unpackD8 x
  else if t = 24 then unpackBin 18 (lane 16 tab (x % 16))
  else if 16 ≤ t then unpackBin t x
  else
    let w := tyW t
    let v : Int := if t ≤ 3 || t = 8 then sval w x else (x : Int)
    .fin (decide (v < 0)) v.natAbs 0

/-- A subnormal input taken as zero of its own sign under FZI (spec R71). -/
def flushIn (fzi : Bool) (t : Nat) (v : FVal) : FVal :=
  match v with
  | .fin neg m e => if fzi && flushable t && decide (m < 2 ^ (fmtOf t).mb) then .fin neg 0 e else v
  | _ => v

/-- A signalling NaN among the inputs. -/
def FVal.isSig : FVal → Bool
  | .nan s => s
  | _ => false

/-- A NaN. -/
def FVal.isNaN : FVal → Bool
  | .nan _ => true
  | _ => false

/-- A zero. -/
def FVal.isZero : FVal → Bool
  | .fin _ m _ => m = 0
  | _ => false

/-- The sign of a value; a NaN has none. -/
def FVal.neg : FVal → Bool
  | .nan _ => false
  | .inf s => s
  | .fin s _ _ => s

/-- A value with its sign turned when a condition holds. -/
def FVal.negIf (c : Bool) : FVal → FVal
  | .nan s => .nan s
  | .inf s => .inf (s ^^ c)
  | .fin s m e => .fin (s ^^ c) m e

/-! ### Rounding -/

/-- Bits of a number up to its highest one. -/
def bitLen (m : Nat) : Nat := if m = 0 then 0 else Nat.log2 m + 1

/-- `m / 2^k` rounded to a whole number: the result and whether it is inexact. -/
def roundShift (rm : RMode) (neg : Bool) (m k : Nat) : Nat × Bool :=
  let q := m >>> k
  let r := m % 2 ^ k
  if r = 0 then (q, false)
  else
    let up := match rm with
      | .rne => decide (2 ^ k < 2 * r) || (2 * r = 2 ^ k && q % 2 = 1)
      | .rna => decide (2 ^ k ≤ 2 * r)
      | .rtz => false
      | .rup => !neg
      | .rdn => neg
    (if up then q + 1 else q, true)

/-- `m · 2^e` as a whole number of quanta `2^u`, rounded. -/
def roundQ (rm : RMode) (neg : Bool) (m : Nat) (e u : Int) : Nat × Bool :=
  if u ≤ e then (m <<< (e - u).toNat, false) else roundShift rm neg m (u - e).toNat

/-- What rounding a result takes: the mode, FZO and SAT. -/
structure RCtl where
  rm : RMode := .rne
  fzo : Bool := false
  sat : Bool := false
  deriving DecidableEq, Repr

/-- An infinite result as the format delivers it, with the flag SAT where it clamps (spec R61). -/
def deliverInf (t : Nat) (sat neg : Bool) : Nat × FlagSet :=
  if t = 22 then (signBit t neg + 7, fSAT)
  else if (t = 20 || t = 21) && sat then (signBit t neg + maxFin t, fSAT)
  else if t = 20 then (canonNaN 20, 0)
  else (signBit t neg + infCode t, 0)

/-- The rounding mode makes an overflow infinite (spec R61). -/
def overInf (rm : RMode) (neg : Bool) : Bool :=
  match rm with
  | .rne | .rna => true
  | .rtz => false
  | .rup => !neg
  | .rdn => neg

/-- A nonzero finite value is tiny (spec R71). -/
def isTiny (rm : RMode) (t : Nat) (neg : Bool) (m : Nat) (e : Int) : Bool :=
  let f := fmtOf t
  let x := e + bitLen m - 1
  decide (x < f.emin) && !(x = f.emin - 1 && (roundQ rm neg m e (x - f.mb)).1 = 2 ^ (f.mb + 1))

/-- A nonzero finite value rounded into a binary format: the code and the flags (spec R61, R70, R71). -/
def roundFin (c : RCtl) (t : Nat) (neg : Bool) (m : Nat) (e : Int) : Nat × FlagSet :=
  let f := fmtOf t
  let x := e + bitLen m - 1
  let u := (if x < f.emin then f.emin else x) - f.mb
  let tiny := isTiny c.rm t neg m e
  if tiny && c.fzo && flushable t then (signBit t neg, fUF ||| fNX)
  else
    let (n, inx) := roundQ c.rm neg m e u
    let code := (u - (f.emin - f.mb)).toNat * 2 ^ f.mb + n
    if maxFin t < code then
      if overInf c.rm neg then
        let (r, s) := deliverInf t c.sat neg
        (r, fOF ||| fNX ||| s)
      else (signBit t neg + maxFin t, fOF ||| fNX)
    else (signBit t neg + code, flagIf inx fNX ||| flagIf (tiny && inx) fUF)

/-- The order of two magnitudes `m · 2^e`. -/
def magLe (m1 : Nat) (e1 : Int) (m2 : Nat) (e2 : Int) : Bool :=
  if e1 ≤ e2 then decide (m1 ≤ m2 <<< (e2 - e1).toNat) else decide (m1 <<< (e1 - e2).toNat ≤ m2)

/-- The least body whose midpoint with the next is not below a magnitude: the nearest body, ties to even (spec R64). -/
def d8Near (m : Nat) (e : Int) : Nat → Nat → Nat
  | 0, c => c
  | k + 1, c =>
    let (m1, q1) := d8Mag c
    let (m2, q2) := d8Mag (c + 1)
    let mid := m1 * 2 ^ (28 - q1) + m2 * 2 ^ (28 - q2)
    let le := magLe m e mid (-29)
    let tie := le && magLe mid (-29) m e
    if le && (!tie || c % 2 = 0) then c else d8Near m e k (c + 1)

/-- A value converted into `d8` (spec R64). -/
def toD8 (v : FVal) : Nat × FlagSet :=
  match v with
  | .nan s => (0x80, flagIf s fNV)
  | .inf neg => ((if neg then 0xFF else 0x7F), fSAT ||| fNX)
  | .fin neg m e =>
    if m = 0 then (0, 0)
    else
      let past := !(magLe m e 6310 (-6))
      let c := if past then 0x7F else d8Near m e 0x7F 0
      let (mc, q) := d8Mag c
      let eq := magLe m e mc (-(q : Int)) && magLe mc (-(q : Int)) m e
      ((if c = 0 then 0 else c + (if neg then 128 else 0)), flagIf past fSAT ||| flagIf (!eq) fNX ||| flagIf (c = 0) fUF)

/-- A value delivered in a floating format (spec R60, R61, R64, R70, R71). A signalling NaN sets NV; so does any NaN into
`e2m1`. -/
def roundTo (c : RCtl) (t : Nat) (v : FVal) : Nat × FlagSet :=
  if t = 23 then toD8 v
  else
    match v with
    | .nan s => (canonNaN t, flagIf (s || t = 22) fNV)
    | .inf neg =>
      let (r, s) := deliverInf t c.sat neg
      (r, s ||| flagIf (t = 20 && !c.sat) fNV)
    | .fin neg m e => if m = 0 then (signBit t neg, 0) else roundFin c t neg m e

/-- A value rounded to a whole number under a mode: its sign, magnitude and whether it is inexact. -/
def roundInt (rm : RMode) (neg : Bool) (m : Nat) (e : Int) : Nat × Bool := roundQ rm neg m e 0

/-- The least and greatest value of an integer type (spec R57). -/
def tmin (t : Nat) : Int := if t ≤ 3 || t = 8 then -((2 ^ (tyW t - 1) : Nat) : Int) else 0
/-- The greatest value of an integer type. -/
def tmax (t : Nat) : Int := if t ≤ 3 || t = 8 then ((2 ^ (tyW t - 1) : Nat) : Int) - 1 else ((2 ^ tyW t : Nat) : Int) - 1

/-- A value converted to an integer type (spec R58). -/
def toInt (rm : RMode) (t : Nat) (v : FVal) : Nat × FlagSet :=
  match v with
  | .nan _ => (0, fNV)
  | .inf neg => (wrapN (tyW t) (if neg then tmin t else tmax t), fNV ||| fSAT)
  | .fin neg m e =>
    let (n, inx) := roundInt rm neg m e
    let x : Int := if neg then -(n : Int) else n
    if x < tmin t then (wrapN (tyW t) (tmin t), fNV ||| fSAT)
    else if tmax t < x then (wrapN (tyW t) (tmax t), fNV ||| fSAT)
    else (wrapN (tyW t) x, flagIf inx fNX)

/-! ### Exact operations -/

/-- A signed magnitude at an exponent as an integer at a lower or equal exponent. -/
def atExp (neg : Bool) (m : Nat) (e u : Int) : Int :=
  let x : Int := ((m <<< (e - u).toNat : Nat) : Int)
  if neg then -x else x

/-- The exact sum of two values; `rdn` says the mode in force is toward −∞ (spec R156). Answers NV too. -/
def addExact (rdn : Bool) (x y : FVal) : FVal × FlagSet :=
  match x, y with
  | .nan s, .nan r => (.nan false, flagIf (s || r) fNV)
  | .nan s, _ => (.nan false, flagIf s fNV)
  | _, .nan r => (.nan false, flagIf r fNV)
  | .inf a, .inf b => if a = b then (.inf a, 0) else (.nan false, fNV)
  | .inf a, .fin _ _ _ => (.inf a, 0)
  | .fin _ _ _, .inf b => (.inf b, 0)
  | .fin a m e, .fin b n k =>
    let u := if e ≤ k then e else k
    let z := atExp a m e u + atExp b n k u
    if z = 0 then (.fin (if m = 0 && n = 0 && a = b then a else rdn) 0 u, 0)
    else (.fin (decide (z < 0)) z.natAbs u, 0)

/-- The exact product of two values. -/
def mulExact (x y : FVal) : FVal × FlagSet :=
  match x, y with
  | .nan s, .nan r => (.nan false, flagIf (s || r) fNV)
  | .nan s, _ => (.nan false, flagIf s fNV)
  | _, .nan r => (.nan false, flagIf r fNV)
  | .inf a, .inf b => (.inf (a ^^ b), 0)
  | .inf a, .fin b n _ => if n = 0 then (.nan false, fNV) else (.inf (a ^^ b), 0)
  | .fin a m _, .inf b => if m = 0 then (.nan false, fNV) else (.inf (a ^^ b), 0)
  | .fin a m e, .fin b n k => (.fin (a ^^ b) (m * n) (e + k), 0)

/-- The exact a·b + c, one NV for ∞ · 0 whatever the addend (spec R156). -/
def fmaExact (rdn : Bool) (x y z : FVal) : FVal × FlagSet :=
  let (p, f) := mulExact x y
  if f &&& fNV ≠ 0 && !(x.isNaN || y.isNaN) then (.nan false, fNV)
  else
    let (r, g) := addExact rdn p z
    (r, f ||| g)

/-- The quotient of two magnitudes with enough bits and a sticky last bit, so that any rounding to a format of this chapter is
that of the exact quotient. -/
def quotSticky (m n : Nat) : Nat × Int :=
  let k := 130 + bitLen n
  let q := (m <<< k) / n
  (2 * q + (if (m <<< k) % n = 0 then 0 else 1), -(k : Int) - 1)

/-- The quotient of two values (spec R156, R158). -/
def divExact (x y : FVal) : FVal × FlagSet :=
  match x, y with
  | .nan s, .nan r => (.nan false, flagIf (s || r) fNV)
  | .nan s, _ => (.nan false, flagIf s fNV)
  | _, .nan r => (.nan false, flagIf r fNV)
  | .inf _, .inf _ => (.nan false, fNV)
  | .inf a, .fin b _ _ => (.inf (a ^^ b), 0)
  | .fin a _ e, .inf b => (.fin (a ^^ b) 0 e, 0)
  | .fin a m e, .fin b n k =>
    if n = 0 then (if m = 0 then (.nan false, fNV) else (.inf (a ^^ b), fDZ))
    else if m = 0 then (.fin (a ^^ b) 0 e, 0)
    else
      let (q, u) := quotSticky m n
      (.fin (a ^^ b) q (e - k + u), 0)

/-- The bits of an integer square root from bit `k - 1` down. -/
def isqrtFrom : Nat → Nat → Nat → Nat
  | 0, _, r => r
  | k + 1, n, r => isqrtFrom k n (if (r + 2 ^ k) * (r + 2 ^ k) ≤ n then r + 2 ^ k else r)

/-- The integer square root. -/
def isqrt (n : Nat) : Nat := isqrtFrom (bitLen n / 2 + 1) n 0

/-- The root of a magnitude with enough bits and a sticky last bit. -/
def rootSticky (m : Nat) (e : Int) : Nat × Int :=
  let m1 := if e % 2 = 0 then m else 2 * m
  let e1 := if e % 2 = 0 then e else e - 1
  let x := m1 <<< 260
  let r := isqrt x
  (2 * r + (if r * r = x then 0 else 1), e1 / 2 - 130 - 1)

/-- The square root of a value (spec R158). -/
def sqrtExact (x : FVal) : FVal × FlagSet :=
  match x with
  | .nan s => (.nan false, flagIf s fNV)
  | .inf neg => if neg then (.nan false, fNV) else (.inf false, 0)
  | .fin neg m e =>
    if m = 0 then (.fin neg 0 e, 0)
    else if neg then (.nan false, fNV)
    else
      let (r, u) := rootSticky m e
      (.fin false r u, 0)

/-- A value scaled by 2^k. -/
def FVal.scale (v : FVal) (k : Int) : FVal :=
  match v with
  | .fin neg m e => .fin neg m (e + k)
  | _ => v

/-- `x < y` for values that are not NaN, −0 = +0. -/
def fLt (x y : FVal) : Bool :=
  match x, y with
  | .inf a, .inf b => a && !b
  | .inf a, .fin _ _ _ => a
  | .fin _ _ _, .inf b => !b
  | .fin a m e, .fin b n k =>
    let u := if e ≤ k then e else k
    decide (atExp a m e u < atExp b n k u)
  | _, _ => false

/-- `x = y` for values that are not NaN, −0 = +0. -/
def fEq (x y : FVal) : Bool := !x.isNaN && !y.isNaN && !(fLt x y) && !(fLt y x)

/-- The result of an operation rounded once, with the flags of both (spec R70). -/
def roundOp (c : RCtl) (t : Nat) (r : FVal × FlagSet) : Nat × FlagSet :=
  let (x, f) := roundTo c t r.1
  (x, r.2 ||| f)

end Sys2Proof.Machine
end

