-- ==== Sys2Proof/Machine/Approx.lean ====
section
/-! DEFINITION. The approximation forms (spec R159): rational enclosures of the exact results, and the free function of the part
held to its bound (log entry 13). -/

namespace Sys2Proof.Machine

/-- An enclosure of a positive exact result: `lo · 2^e ≤ x ≤ hi · 2^e`. -/
structure Encl where
  lo : Nat
  hi : Nat
  e : Int
  deriving DecidableEq, Repr

/-- The distance of `a` from an interval's farther end, all on one scale. -/
def farDist (a lo hi : Nat) : Nat := max (a - lo) (max (lo - a) (max (a - hi) (hi - a)))

/-- A magnitude code of a type lies within `k` ulp of the exact result, for certain; `ulp` is the spacing at the result. -/
def withinUlp (t k code : Nat) (x : Encl) : Bool :=
  let f := fmtOf t
  let top := x.e + bitLen x.lo - 1
  let u : Int := (if top < f.emin then f.emin else top) - f.mb
  match unpackBin t code with
  | .fin false m e =>
    let b := min e (min u x.e)
    decide (farDist (m <<< (e - b).toNat) (x.lo <<< (x.e - b).toNat) (x.hi <<< (x.e - b).toNat) ≤ k * 2 ^ (u - b).toNat)
  | _ => false

/-- A positive result that is not exact: the part's own code where it meets the bound, else the nearest; a result past the
largest finite value is infinite, a tiny one follows R71 (spec R159). -/
def approxPick (fzo : Bool) (op t inp k : Nat) (x : Encl) : Nat × FlagSet :=
  let f := fmtOf t
  let top := x.e + bitLen x.lo - 1
  if f.bias < top then (infCode t, fOF ||| fNX)
  else
    let c := Config.approx op t inp % 2 ^ (f.w - 1)
    let near := (roundFin {} t false x.lo x.e).1
    let r := if withinUlp t k c x then c else min near (maxFin t)
    let tiny := isTiny .rne t false x.lo x.e
    if tiny && fzo then (0, fUF ||| fNX) else (r, fNX ||| flagIf tiny fUF)

/-! ### Reciprocals: one of the two codes that bracket the exact result -/

/-- A faithful result: the part rounds the exact value up or down; one past the largest code is an infinity, of either sign (spec R159; log entry
79). -/
def faithful (fzo : Bool) (op t inp : Nat) (neg : Bool) (m : Nat) (e : Int) : Nat × FlagSet :=
  let up := Config.approx op t inp % 2 = 1
  let f := fmtOf t
  let past := !(magLe m e (2 ^ (f.mb + 1) - 1) ((f.bias : Int) - f.mb))
  if past then (signBit t neg + infCode t, fOF ||| fNX)
  else roundFin { rm := if up = neg then .rdn else .rup, fzo := fzo } t neg m e

/-- `FRCP` (spec R159). -/
def frcp (fzo : Bool) (t inp : Nat) (v : FVal) : Nat × FlagSet :=
  match v with
  | .nan s => (canonNaN t, flagIf s fNV)
  | .inf neg => (signBit t neg, 0)
  | .fin neg m e =>
    if m = 0 then (signBit t neg + infCode t, fDZ)
    else
      let (q, u) := quotSticky 1 m
      faithful fzo 0 t inp neg q (u - e)

/-- `FRSQ` (spec R159). -/
def frsq (fzo : Bool) (t inp : Nat) (v : FVal) : Nat × FlagSet :=
  match v with
  | .nan s => (canonNaN t, flagIf s fNV)
  | .inf neg => if neg then (canonNaN t, fNV) else (0, 0)
  | .fin neg m e =>
    if m = 0 then (signBit t neg + infCode t, fDZ)
    else if neg then (canonNaN t, fNV)
    else
      let m1 := if e % 2 = 0 then m else 2 * m
      let e1 := if e % 2 = 0 then e else e - 1
      let (q, u) := quotSticky 1 m1
      let q1 := if u % 2 = 0 then q <<< 200 else q <<< 201
      let u1 := if u % 2 = 0 then u - 200 else u - 201
      let r := isqrt q1
      let exact := q % 2 = 0 && r * r = q1
      faithful fzo 1 t inp false (2 * r + (if exact then 0 else 1)) ((u1 - e1) / 2 - 1)

/-! ### Exponential, logarithm, hyperbolic tangent: fixed point of 192 bits -/

/-- The fixed-point scale. -/
def fxS : Nat := 2 ^ 192

/-- Twice the inverse hyperbolic tangent of `n / d` for `n / d ≤ 1/3`, as a lower and an upper bound scaled by `fxS`:
the terms are rounded down and the bound widened by the terms' count and the tail. -/
def atanh2From : Nat → Nat → Nat → Nat → Nat → Nat
  | 0, _, _, _, acc => acc
  | k + 1, z2, p, i, acc => atanh2From k z2 (p * z2 / fxS) (i + 1) (acc + 2 * p / (2 * i + 1))

/-- Bounds of `2 atanh(n / d)`. -/
def atanh2 (n d : Nat) : Nat × Nat :=
  let z := n * fxS / d
  let lo := atanh2From 70 (z * z / fxS) z 0 0
  (lo, lo + 1000)

/-- Bounds of ln 2. -/
def ln2 : Nat × Nat := atanh2 1 3

/-- The exponential series of `x / fxS` below 1, rounded down at each term. -/
def expFrom : Nat → Nat → Nat → Nat → Nat → Nat
  | 0, _, _, _, acc => acc
  | k + 1, x, p, i, acc => expFrom k x (p * x / fxS / (i + 1)) (i + 1) (acc + p)

/-- Bounds of exp of a number between 0 and 1 given by its bounds. -/
def expFx (lo hi : Nat) : Nat × Nat := (expFrom 60 lo fxS 0 0, expFrom 60 hi fxS 0 0 + 1000)

/-- Bounds of 2^(n / 2^k) for n below 2^k. -/
def exp2Frac (n k : Nat) : Nat × Nat :=
  expFx (n * ln2.1 / 2 ^ k) (n * ln2.2 / 2 ^ k + 1)

/-- The whole and the fractional part of `m · 2^e` as `(whole, numerator, log of denominator)`. -/
def splitFrac (m : Nat) (e : Int) : Nat × Nat × Nat :=
  if 0 ≤ e then (m <<< e.toNat, 0, 0)
  else (m >>> (-e).toNat, m % 2 ^ (-e).toNat, (-e).toNat)

/-- The enclosure of 2^x for a finite x that is not a whole number. -/
def exp2Encl (neg : Bool) (m : Nat) (e : Int) : Encl :=
  let (w, n, k) := splitFrac m e
  if neg then
    let (lo, hi) := exp2Frac (2 ^ k - n) k
    { lo := lo, hi := hi, e := -(w : Int) - 1 - 192 }
  else
    let (lo, hi) := exp2Frac n k
    { lo := lo, hi := hi, e := (w : Int) - 192 }

/-- A magnitude past which 2^x leaves every range. -/
def expFar (m : Nat) (e : Int) : Bool := !(magLe m e 4096 0)

/-- The ulp bound of a type (spec R159). -/
def ulpBound (t : Nat) : Nat := if t = 17 then 2 else 1

/-- `FEXP2` (spec R159). -/
def fexp2 (fzo : Bool) (t inp : Nat) (v : FVal) : Nat × FlagSet :=
  match v with
  | .nan s => (canonNaN t, flagIf s fNV)
  | .inf neg => if neg then (0, 0) else (infCode t, 0)
  | .fin neg m e =>
    if m = 0 then ((roundFin {} t false 1 0).1, 0)
    else if expFar m e then
      (if neg then approxPick fzo 2 t inp (ulpBound t) { lo := 1, hi := 1, e := -4096 } else (infCode t, fOF ||| fNX))
    else
      let (w, n, _) := splitFrac m e
      if n = 0 then
        let r := roundFin { fzo := fzo } t false 1 (if neg then -(w : Int) else w)
        if r.2 &&& fNX = 0 || r.2 &&& fOF ≠ 0 || fzo then r
        else approxPick fzo 2 t inp (ulpBound t) { lo := 1, hi := 1, e := if neg then -(w : Int) else w }
      else approxPick fzo 2 t inp (ulpBound t) (exp2Encl neg m e)

/-- Bounds of log2 of `m / 2^(bitLen m - 1)`, a number of 1 or above and below 2. -/
def log2Frac (m : Nat) : Nat × Nat :=
  let d := 2 ^ (bitLen m - 1)
  let (lo, hi) := atanh2 (m - d) (m + d)
  (lo * fxS / ln2.2, hi * fxS / ln2.1 + 1)

/-- `FLOG2` (spec R159). -/
def flog2 (fzo : Bool) (t inp : Nat) (v : FVal) : Nat × FlagSet :=
  match v with
  | .nan s => (canonNaN t, flagIf s fNV)
  | .inf neg => if neg then (canonNaN t, fNV) else (infCode t, 0)
  | .fin neg m e =>
    if m = 0 then (signBit t true + infCode t, fDZ)
    else if neg then (canonNaN t, fNV)
    else
      let k : Int := e + bitLen m - 1
      let (lo, hi) := log2Frac m
      if m = 2 ^ (bitLen m - 1) then
        (if k = 0 then (0, 0) else roundFin { fzo := fzo } t (decide (k < 0)) k.natAbs 0)
      else if 0 ≤ k then
        approxPick fzo 3 t inp (ulpBound t) { lo := k.toNat * fxS + lo, hi := k.toNat * fxS + hi, e := -192 }
      else
        let (r, f) := approxPick fzo 3 t inp (ulpBound t)
          { lo := (-k).toNat * fxS - hi, hi := (-k).toNat * fxS - lo, e := -192 }
        (r + signBit t true, f)

/-- The enclosure of tanh of a positive finite value: x − x³ and x for small ones, else by the exponential. -/
def tanhEncl (m : Nat) (e : Int) : Encl :=
  if e + bitLen m < -40 then
    { lo := m * 2 ^ 60 - (m + 1), hi := m * 2 ^ 60, e := e - 60 }
  else if !(magLe m e 64 0) then { lo := 2 ^ 192 - 2 ^ 20, hi := 2 ^ 192, e := -192 }
  else
    -- tanh x = (y - 1) / (y + 1) with y = exp(2x)
    let (w, n, k) := splitFrac m (e + 1)
    let (l1, h1) := expFx (n * fxS / 2 ^ k) (n * fxS / 2 ^ k + 1)
    let (el, eh) := expFx fxS fxS
    let yl := powFx 0 w el l1
    let yh := powFx 1 w eh h1
    { lo := (yl - fxS) * fxS / (yl + fxS), hi := (yh - fxS) * fxS / (yh + fxS) + 1, e := -192 }
where
  /-- `y · b^w` in fixed point, `c` added at each product rounded down. -/
  powFx (c : Nat) : Nat → Nat → Nat → Nat
    | 0, _, y => y
    | w + 1, b, y => powFx c w b (y * b / fxS + c)

/-- `FTANH` (spec R159). -/
def ftanh (fzo : Bool) (t inp : Nat) (v : FVal) : Nat × FlagSet :=
  match v with
  | .nan s => (canonNaN t, flagIf s fNV)
  | .inf neg => (signBit t neg + (roundFin {} t false 1 0).1, 0)
  | .fin neg m e =>
    if m = 0 then (signBit t neg, 0)
    else
      let (r, f) := approxPick fzo 4 t (inp % 2 ^ ((fmtOf t).w - 1)) (ulpBound t) (tanhEncl m e)
      (r + signBit t neg, f)

end Sys2Proof.Machine
end

