-- ==== Sys2Proof/Machine/Place.lean ====
section
/-! DEFINITION. Placement: what fits where, the order of the units, and placing one (spec R26, R31, R119, R135). -/

namespace Sys2Proof.Machine

/-! ### Room on a core -/

/-- Strands that hold a slot of a core. -/
def State.onCore (s : State) (k : Nat) : List (Nat × Strand) :=
  s.strands.filter fun e => e.2.place.resident && e.2.place.key = k

/-- Free slots, register units and scratchpad KiB of a core (spec R1, R31). -/
structure Room where
  slots : Nat
  regs : Nat
  spad : Nat
  deriving DecidableEq, Repr

/-- The room of a core: eight slots, 256 KiB of register space, 512 KiB of scratchpad. -/
def State.room (s : State) (k : Nat) : Room :=
  let l := s.onCore k
  { slots := 8 - l.length, regs := 1024 - l.foldl (fun a e => a + e.2.fr.wsize) 0,
    spad := 512 - l.foldl (fun a e => a + e.2.fr.spad) 0 }

/-- What a strand needs of a core: register units and scratchpad KiB. -/
abbrev Need := Nat × Nat

/-- A core can take one strand. -/
def Room.takes (r : Room) (n : Need) : Bool := decide (0 < r.slots) && decide (n.1 ≤ r.regs) && decide (n.2 ≤ r.spad)

/-- The room left. -/
def Room.less (r : Room) (n : Need) : Room := { slots := r.slots - 1, regs := r.regs - n.1, spad := r.spad - n.2 }

/-- The eligible core with the most free slots, the lowest-numbered on a tie (spec R31). -/
def bestCore (n : Need) : List (Nat × Room) → Option (Nat × Room)
  | [] => none
  | c :: t =>
    match bestCore n t with
    | none => if c.2.takes n then some c else none
    | some d => if c.2.takes n && decide (d.2.slots ≤ c.2.slots) then some c else some d

/-- Assigns strands in index order to cores; none if one does not fit (spec R31). -/
def assign : List Need → List (Nat × Room) → Option (List Nat)
  | [], _ => some []
  | n :: t, cs =>
    match bestCore n cs with
    | none => none
    | some c => (assign t (cs.map fun x => if x.1 = c.1 then (x.1, x.2.less n) else x)).map fun l => c.1 :: l

/-- The cores of a cluster that a partition holds; cluster 32 is the CIC (spec R31, R338). -/
def State.coresOf (s : State) (part cl : Nat) : List Nat :=
  if cl = 32 then (if (s.part part).cube then [256] else [])
  else (rangeFrom (8 * cl) 8).filter fun k => bbit (s.part part).halves (k / 4)

/-- The free slots of the cores of a cluster. -/
def State.freeSlots (s : State) (part cl : Nat) : Nat := (s.coresOf part cl).foldl (fun a k => a + (s.room k).slots) 0

/-- The cores a list of strands takes on a cluster, in index order. -/
def State.fit (s : State) (part cl : Nat) (ns : List Need) : Option (List Nat) :=
  assign ns ((s.coresOf part cl).map fun k => (k, s.room k))

/-! ### Units -/

/-- A strand may take part in issue: resident, not spinning, not idle, not stopped. -/
def Strand.runs (t : Strand) : Bool := t.id.state = 1 && t.place.resident && !t.sch.idle && t.sch.stop.isNone

/-- A unit of placement: records already created, by their place in the list, or the next gang of a launch (spec R31). -/
inductive UnitK where
  | recs (p : PUnit)
  | gang (node : Nat)
  deriving DecidableEq, Repr

/-- The effective priority of a unit: the highest of its strands (spec R31; log entry 71). -/
def State.unitPrio (s : State) : UnitK → Nat
  | .recs p => p.sids.foldl (fun a i => max a (((s.strand? i).getD {}).id.eprio.toNat)) 0
  | .gang n => lpbF (s.node n).lpb 8 3

/-- A launch node has gangs still to materialise (spec R26). -/
def Node.gangsLeft (v : Node) : Bool :=
  v.kind = .launch && (v.st = .ready || v.st = .active) && decide (v.mat < lpbGangs v.lpb)

/-- A node put in its place by creation order. -/
def insertOrder (x : Nat × Nat) : List (Nat × Nat) → List (Nat × Nat)
  | [] => [x]
  | y :: t => if x.2 < y.2 then x :: y :: t else y :: insertOrder x t

/-- Launch nodes with gangs left, in creation order. -/
def State.gangNodes (s : State) : List Nat :=
  ((s.chuck.nodes.filter fun e => e.2.gangsLeft).foldl (fun l e => insertOrder (e.1, e.2.order) l) []).map Prod.fst

/-- Units in the order they are considered: by effective priority, records before new gangs within one (spec R31); a unit with a record
that a pre-emption holds is not considered (spec R136). -/
def State.unitsInOrder (s : State) : List UnitK :=
  let all : List UnitK := (s.chuck.ready.filter fun p => !(s.poolHeld p.sids)).map UnitK.recs ++ s.gangNodes.map UnitK.gang
  ([7, 6, 5, 4, 3, 2, 1, 0] : List Nat).flatMap fun p => all.filter fun u => s.unitPrio u = p

/-- The first strand of a unit of records. -/
def State.headOf (s : State) (p : PUnit) : Strand := (s.strand? (p.sids.headD 0)).getD {}

/-- The partition of a unit. -/
def State.unitPart (s : State) : UnitK → Nat
  | .recs p => (s.headOf p).id.part
  | .gang n => (s.node n).part

/-- The class of a unit: true for the CIC. -/
def State.unitCls (s : State) : UnitK → Bool
  | .recs p => (s.headOf p).id.cls
  | .gang n => lpbF (s.node n).lpb 11 1 = 1

/-- What each strand of a unit needs. -/
def State.unitNeeds (s : State) : UnitK → List Need
  | .recs p => p.sids.map fun i => let t := (s.strand? i).getD {}; (t.fr.wsize, t.fr.spad)
  | .gang n => let l := (s.node n).lpb; List.replicate (lpbNstr l) (lpbF l 171 11, lpbF l 182 10)

/-- The clusters a unit may go to (spec R31, R32). -/
def State.unitClusters (s : State) (u : UnitK) : List Nat :=
  if s.unitCls u then [32]
  else
    match u with
    | .recs p => if p.bound then [(s.headOf p).place.cluster.toNat] else List.range 32
    | .gang _ => List.range 32

/-- The identity of a unit for a reservation. -/
def UnitK.key : UnitK → Nat × Bool
  | .recs p => (p.sids.headD 0, false)
  | .gang n => (n, true)

/-- A cluster is kept for another unit that still waits (spec R31). -/
def State.keptFrom (s : State) (u : UnitK) (cl : Nat) : Bool :=
  s.chuck.reserved.any fun r => r.1 = cl && !(u.key = r.2) && s.unitsInOrder.any fun v => v.key = r.2

/-- A unit has the context-store entries it needs: those of a new gang are granted first (spec R31, R135). -/
def State.hasEntries (s : State) (u : UnitK) : Bool :=
  match u with
  | .recs _ => true
  | .gang n => (s.node n).resv ≠ 0

/-- The better of two choices of cluster: more free slots, then the lower number (spec R31). -/
def betterCl (a b : Nat × Nat × List Nat) : Nat × Nat × List Nat := if a.2.1 < b.2.1 then b else a

/-- The cluster and cores a unit is placed on, if it fits (spec R31). -/
def State.choice (s : State) (u : UnitK) : Option (Nat × List Nat) :=
  if !(s.hasEntries u) || (s.part (s.unitPart u)).st ≠ 1 then none
  else
    let fits := (s.unitClusters u).filterMap fun cl =>
      if s.keptFrom u cl then none
      else (s.fit (s.unitPart u) cl (s.unitNeeds u)).map fun cs => (cl, s.freeSlots (s.unitPart u) cl, cs)
    match fits with
    | [] => none
    | f :: t => let b := t.foldl betterCl f; some (b.1, b.2.2)

/-- The first unit in order that fits, with its place. -/
def State.nextPlacement (s : State) : Option (UnitK × Nat × List Nat) :=
  s.unitsInOrder.findSome? fun u => (s.choice u).map fun c => (u, c.1, c.2)

/-- A unit waits that could be placed on the strand's cluster, of effective priority at least the strand's own (spec R119). The strand's is the
effective priority it issued with, aging included (log entry 87). -/
def State.yieldsTo (s : State) (t : Strand) : Bool :=
  s.unitsInOrder.any fun u =>
    decide (t.id.eprio.toNat ≤ s.unitPrio u) &&
      (match u with
        | .recs p =>
          if p.bound then
            let h := s.headOf p
            h.id.cls = t.id.cls && (t.id.cls || h.place.cluster = t.place.cluster)
          else s.unitPart u = t.id.part && s.unitCls u = t.id.cls
        | .gang _ => s.unitPart u = t.id.part && s.unitCls u = t.id.cls)

/-! ### Placing -/

/-- The lowest free slot of a core. -/
def State.freeSlot (s : State) (k : Nat) : Nat :=
  let used := (s.onCore k).map fun e => e.2.place.slot.toNat
  ((List.range 8).find? fun i => !used.contains i).getD 0

/-- The place that a core number names. -/
def placeAt (k slot : Nat) : Place :=
  { cluster := if k = 256 then 0 else BitVec.ofNat 5 (k / 8), core := if k = 256 then 0 else BitVec.ofNat 3 k,
    cic := k = 256, slot := BitVec.ofNat 3 slot, resident := true }

/-- A strand takes a slot of a core and becomes RESIDENT (spec R31, R34). The time its slot has gone without issuing counts from here (log
entry 88). -/
def State.putOn (s : State) (sid k : Nat) : State :=
  let slot := s.freeSlot k
  s.onStrand sid fun t =>
    { t with
      place := placeAt k slot
      id := { t.id with state := 1, reason := 0, wkind := 0, wctx := 0, wval := 0 }
      sch := { t.sch with age := 0, passed := false, last := s.cycle k } }

/-- The strand with index `i` of the next gang of a launch (spec R18, R22, R26). -/
def gangStrand (n : Nat) (v : Node) (i : Nat) : Strand :=
  let l := v.lpb
  newStrand
    { launch := BitVec.ofNat 16 n, gang := BitVec.ofNat 20 v.mat, idx := BitVec.ofNat 6 i, stage := BitVec.ofNat 8 (lpbStage0 l),
      nstr := BitVec.ofNat 7 (lpbNstr l), ngangs := BitVec.ofNat 21 (lpbGangs l), cls := lpbF l 11 1 = 1,
      bprio := BitVec.ofNat 3 (lpbF l 8 3), pasid := v.pasid, part := v.part }
    (lpbFrames l (v.mat * lpbNstr l + i)) (BitVec.ofNat 32 (lpbF l 128 32)) 0 (lpbArgs l)

/-- Creates and places the strands of a gang, in index order (spec R26). -/
def placeGang (n : Nat) (v : Node) : Nat → List Nat → State → State
  | _, [], s => s
  | i, k :: t, s =>
    let (sid, s1) := s.addStrand (gangStrand n v i)
    placeGang n v (i + 1) t (s1.putOn sid k)

/-- Places records on cores in order. -/
def placeRecs : List Nat → List Nat → State → State
  | i :: t, k :: u, s => placeRecs t u (s.putOn i k)
  | _, _, s => s

/-- Places a unit on the cores chosen for it; a reservation kept for it ends (spec R26, R31). -/
def State.place (s : State) (u : UnitK) (cores : List Nat) : State :=
  let s0 := { s with chuck := { s.chuck with reserved := s.chuck.reserved.filter fun r => !(u.key = r.2) } }
  match u with
  | .recs p =>
    placeRecs p.sids cores { s0 with chuck := { s0.chuck with ready := s0.chuck.ready.filter fun q => q.sids ≠ p.sids } }
  | .gang n =>
    let v := s0.node n
    let s1 := placeGang n v 0 cores (s0.setNode n { v with st := .active, mat := v.mat + 1, resv := 0 })
    if (s1.node n).gangsLeft then s1.gangWaits n else s1

end Sys2Proof.Machine
end

