-- ==== Sys2Proof/Machine/Control.lean ====
section
/-! DEFINITION. Control: branches, calls and frames, counted loops, suspension, spawning, stages and retirement
(spec R39 to R44, R110 to R123). -/

namespace Sys2Proof.Machine

/-! ### Traps and stops of the control forms -/

/-- A `WINDOW` trap (spec R43). -/
def windowTrap (code va aux : Nat) : TrapInfo :=
  { cls := 0x05, code := code, va := BitVec.ofNat 64 va, aux0 := BitVec.ofNat 64 aux }

/-- A `CONTROL` trap (spec R123). -/
def controlTrap (code : Nat) : TrapInfo := { cls := 0x06, code := code }

/-- The strand stops at the boundary after this bundle; a trap outranks a suspension (spec R119, R124, R130). -/
def Op.stopAfter (r : StopReq) : Op Unit := Op.onMe fun t =>
  match t.sch.stop with
  | some (.trap _ _) => t
  | _ => { t with sch := { t.sch with stop := some r } }

/-- A read of the strand met a line that fails its check: it stops with `INTEGRITY` after the bundle (spec R124, R193). -/
def Op.integrity (va : Nat) : Op Unit := fun s =>
  let i : TrapInfo := { cls := 0x09, code := 0, va := BitVec.ofNat 64 va, wi := s.issue.wi, word := s.issue.word }
  .ok ((), s.setMe { s.me with sch := { s.me.sch with stop := some (.trap i s.issue.pos) } })

/-- The forms that a running `LOOPN` nest forbids (spec R116). -/
def Op.noLoop : Op Unit := do
  let act ← Op.look fun t => t.loop.act
  Op.raiseIf act (controlTrap 0x03)

/-- Delivers the first engine trap pending that a condition admits: this bundle is the trapping bundle (spec R129). -/
def Op.deliver (p : ETrap → Bool) : Op Unit := do
  let e ← Op.look fun t => t.trap.pending.find? p
  match e with
  | some x => Op.raise x.info
  | none => pure ()

/-! ### Branches -/

/-- A packet lies in the body of the running nest (spec R115). -/
def LoopSt.holds (l : LoopSt) (p : W32) : Bool := decide ((p - l.first).toNat ≤ (l.last - l.first).toNat)

/-- A nest that ends: no longer running, its indices zero (spec R115, R117). -/
def LoopSt.ended (l : LoopSt) : LoopSt := { l with act := false, pend := false, idx := [0, 0, 0, 0, 0, 0] }

/-- A taken branch: the target, and the end of the nest when it leaves the body (spec R110, R116). -/
def Op.branch (p : W32) : Op Unit := do
  Op.onMe fun t => if t.loop.act && !(t.loop.holds p) then { t with loop := t.loop.ended } else t
  Op.change fun s => { s with issue := { s.issue with tgt := some p } }

/-- A transfer that is no branch: calls, returns, `LOOPN`. -/
def Op.goto (p : W32) : Op Unit := Op.change fun s => { s with issue := { s.issue with tgt := some p } }

/-- The packet of the bundle at hand. -/
def Op.here : Op W32 := Op.see fun s => s.issue.pos.bpc

/-- The packet `off` packets from the one at hand (spec R110). -/
def Op.rel {n : Nat} (off : BitVec n) : Op W32 := do
  let p ← Op.here
  pure (p + off.signExtend 32)

/-- `BR` (spec R110). -/
def execBr (off : BitVec 24) (s : State) : Host.Outcome State Fault Refusal :=
  runOp (do
    let p ← Op.rel off
    Op.branch p) s

/-- The conditions of `BRC` (spec R110). -/
def brcTaken (cc : BitVec 2) (a : W64) : Bool :=
  if cc = 0 then a = 0 else if cc = 1 then a ≠ 0 else if cc = 2 then decide (a.toInt < 0) else decide (0 ≤ a.toInt)

/-- `BRC` (spec R110). -/
def execBrc (f : CForm) (s : State) : Host.Outcome State Fault Refusal :=
  runOp (do
    let a ← Op.readS f.a 16
    let p ← Op.rel f.off
    if brcTaken f.cc a then Op.branch p else pure ()) s

/-- The conditions of `BRV` on the low 256 bits (spec R110). -/
def brvTaken (cc : BitVec 2) (m : Nat) : Bool :=
  if cc = 0 then m ≠ 0 else if cc = 1 then m = 2 ^ 256 - 1 else if cc = 2 then m = 0 else m ≠ 2 ^ 256 - 1

/-- `BRV` (spec R110). -/
def execBrv (f : CForm) (s : State) : Host.Outcome State Fault Refusal :=
  runOp (do
    let a ← Op.readV f.a 16 laneBytes
    let p ← Op.rel f.off
    if brvTaken f.cc (bfld a 0 256) then Op.branch p else pure ()) s

/-- `LOOP` (spec R113). -/
def execLoop (f : CForm) (s : State) : Host.Outcome State Fault Refusal :=
  runOp (do
    let a ← Op.readS f.a 16
    Op.writeS f.a 16 (a - 1)
    let p ← Op.rel f.off
    if a - 1 ≠ 0 then Op.branch p else pure ()) s

/-! ### Calls and frames -/

/-- A call: the link word, the callee's window, ENTER-pending (spec R39, R112). -/
def Op.call (target : W32) : Op Unit := do
  Op.noLoop
  let t ← Op.look id
  Op.raiseIf (t.rot.size ≠ 0) (windowTrap 0x06 0 0)
  let p ← Op.here
  let link := (p + 1).toNat + t.win.f * 2 ^ 32
  Op.writeLoc (.reg (t.rawUnit (t.win.f - 1)) 248 8) link
  Op.onMe fun u =>
    { u with win := { u.win with base := u.win.base + u.win.f - 4, f := 4,
                                 hi := max u.win.hi (u.win.base + u.win.f), ep := true } }
  Op.goto target

/-- `CALL` (spec R39, R112). -/
def execCall (off : BitVec 24) (s : State) : Host.Outcome State Fault Refusal :=
  runOp (do
    let p ← Op.rel off
    Op.call p) s

/-- `CALLI` (spec R39, R112, R116): in a running nest it traps `LOOP_BODY` before its source is read (log entry 47). -/
def execCalli (a : Spec) (pb : BitVec 2) (s : State) : Host.Outcome State Fault Refusal :=
  runOp (do
    Op.noLoop
    let x ← Op.readS a 16
    Op.hint false pb [(false, a)]
    Op.call (x.setWidth 32)) s

/-- A window range of a command as allotment units: the units it names, none past the list. -/
def unitsAt (units : List Nat) (off n : Nat) : List Nat :=
  if n = 0 then [] else (rangeFrom (off / 256) ((off + n - 1) / 256 - off / 256 + 1)).filterMap fun i => units[i]?

/-- The window units a copy command reads or writes (spec R42, R223). -/
def CopyCmd.unitsUsed (c : CopyCmd) : List Nat :=
  let u := 2 ^ bfld c.ctl 0 4
  (List.range (nestCount c.nest)).flatMap fun t =>
    (if bfld c.ctl 4 2 = 2 then unitsAt c.units (wrapN 64 ((c.src.toNat : Int) + nestOffAt c.nest 0 t)) u else [])
      ++ (if bfld c.ctl 6 2 = 2 then unitsAt c.units (wrapN 64 ((c.dst.toNat : Int) + nestOffAt c.nest 1 t)) u else [])

/-- The window units a cube command writes (spec R248). -/
def CubeKind.unitsUsed : CubeKind → List Nat
  | .drain base stride sp _ m n units =>
    if sp = 2 then (List.range m).flatMap fun i => unitsAt units ((base + i * stride) % 2 ^ 64) (4 * n) else []
  | _ => []

/-- An incomplete command of a strand. -/
def Issuer.isStrand (i : Issuer) (sid : Nat) : Bool :=
  match i with
  | .strand k _ _ => k = sid
  | .node _ => false

/-- An incomplete engine command of a strand reads or writes an allotment unit (spec R42). -/
def State.unitBusy (s : State) (sid u : Nat) : Bool :=
  (s.copies.any fun c => c.iss.isStrand sid && c.unitsUsed.contains u)
    || s.cube.cmds.any fun c => c.iss.isStrand sid && c.kind.unitsUsed.contains u

/-- The bundle waits while a unit has a pending byte or an engine still uses it (spec R42, R54). -/
def Op.unitFree (u : Nat) : Op Unit := fun s =>
  if s.view.pendsAt (.reg u 0 256) || s.unitBusy s.cur u then Op.stop .stall s else .ok ((), s)

/-- The earlier accesses of a kind have performed: those of earlier bundles are waited for, those that earlier words of this bundle entered
perform first (spec R83, R118, R195, R353). -/
def Op.earlier (p : Access → Bool) : Op Unit := fun s =>
  if s.view.q.accs.any p then Op.stop .stall s
  else if s.me.q.accs.any p then Op.stop .own s
  else .ok ((), s)

/-- The strand's next bundle waits for the access it has just queued (spec R42). -/
def Op.gateLast : Op Unit := fun s =>
  .ok ((), s.setMe { s.me with sch := { s.me.sch with gate := some (s.cur, s.me.q.next - 1) } })

/-- Spills one logical unit for `ENTER`, a store at strand scope after the strand's earlier stores (spec R40, R42, R195); a V result in flight into the
unit has landed (log entry 86). -/
def Op.spill (l : Nat) : Op Unit := do
  let t ← Op.look id
  Op.unitFree (l % t.fr.wsize)
  Op.earlier fun a => a.q ≠ .load
  let va := t.spillVa l
  Op.raiseIf (t.pastStack l) (windowTrap 0x04 va 0)
  let (segs, rem) ← Op.transl (BitVec.ofNat 64 va) 256 .write 1
  let v := (t.regUnit (l % t.fr.wsize)).toNat
  Op.change fun s =>
    let (m, bad) := s.mem.scatter segs v
    ({ s with mem := m } : State).lineEvents t.id.part bad
  match rem with
  | [] => pure ()
  | r :: _ => do
    Op.onMe fun u => u.sendStore r.va.toNat 256 v
    Op.gateLast

/-- Spills logical units from `l` up. -/
def Op.spills : Nat → Nat → Op Unit
  | 0, _ => pure ()
  | k + 1, l => do
    Op.spill l
    Op.spills k (l + 1)

/-- Window units that hold nothing yet take free values (spec R40; log entry 11). -/
def Op.freshUnits : Nat → Nat → Op Unit
  | 0, _ => pure ()
  | k + 1, l => do
    let v ← Op.draw
    Op.onMe fun u => { u with regs := SMap.set 0 u.regs (l % u.fr.wsize) v }
    Op.change fun s => s.dropLatchAt s.cur (.reg (l % s.me.fr.wsize) 0 256)
    Op.freshUnits k (l + 1)

/-- `ENTER` (spec R40, R43, R116); a rotating region stays (log entry 105). -/
def execEnter (g : BitVec 11) (s : State) : Host.Outcome State Fault Refusal :=
  runOp (do
    Op.noLoop
    let t ← Op.look id
    Op.raiseIf (!t.win.ep) (windowTrap 0x01 0 0)
    Op.raiseIf (decide (g.toNat < 4) || decide (t.fr.wsize < g.toNat)) (windowTrap 0x02 0 0)
    let past := t.win.base + g.toNat - t.win.lo - t.fr.wsize
    Op.spills past t.win.lo
    Op.freshUnits (t.win.base + g.toNat - t.win.hi) t.win.hi
    Op.onMe fun u =>
      { u with win := { u.win with f := g.toNat, lo := u.win.lo + past, hi := u.win.base + g.toNat, ep := false } }) s

/-- Refills one logical unit for `RET`, a load at strand scope after the strand's earlier loads: the address of a line that fails its check, if
it met one (spec R41, R42, R52, R195). -/
def Op.refill (l : Nat) : Op (Option Nat) := do
  let t ← Op.look id
  Op.unitFree (l % t.fr.wsize)
  Op.earlier fun a => a.q ≠ .store
  let (segs, _) ← Op.transl (BitVec.ofNat 64 (t.spillVa l)) 256 .read 0
  let m ← Op.see fun s => s.mem
  match m.badVa segs with
  | some va => pure (some va)
  | none => do
    Op.onMe fun u => { u with regs := SMap.set 0 u.regs (l % u.fr.wsize) (BitVec.ofNat 2048 (m.gather segs)) }
    Op.change fun s => s.dropLatchAt s.cur (.reg (l % s.me.fr.wsize) 0 256)
    pure none

/-- Refills logical units from `l` up; answers the first line that failed its check. -/
def Op.refills : Nat → Nat → Op (Option Nat)
  | 0, _ => pure none
  | k + 1, l => do
    let b ← Op.refill l
    match b with
    | some va => pure (some va)
    | none => Op.refills k (l + 1)

/-- A unit of a range lies in the lost range: the first one (spec R41, R44). -/
def Win.lostIn (w : Win) (l k : Nat) : Option Nat :=
  if w.lost then (rangeFrom l k).find? fun u => decide (w.lostlo ≤ u) && decide (u < w.losthi) else none

/-- `RET` (spec R41, R43, R116). A refill that meets a failing line ends the strand and leaves the window (spec R193); a rotating region stays
(log entry 105). -/
def execRet (s : State) : Host.Outcome State Fault Refusal :=
  runOp (do
    Op.noLoop
    let t ← Op.look id
    let link ← Op.readLoc (.reg (t.unit 3) 248 8)
    let c := nfld link 32 11
    Op.raiseIf (decide (c < 4) || decide (t.fr.wsize < c) || decide (t.win.base < c - 4)) (windowTrap 0x05 0 0)
    Op.raiseIf (nfld link 43 21 ≠ 0) { cls := 0x04, code := 0 }
    let base := t.win.base + 4 - c
    let k := min (t.win.lo - base) c
    match t.win.lostIn base k with
    | some u => Op.raise (windowTrap 0x07 (t.spillVa u) t.win.lostCode)
    | none => do
      let b ← Op.refills k base
      match b with
      | some va => Op.integrity va
      | none => do
        Op.onMe fun u =>
          { u with win := { u.win with base := base, f := c, lo := min u.win.lo base, hi := base + c } }
        Op.goto (BitVec.ofNat 32 link)) s

/-! ### LOOPN -/

/-- A stream register field names an `s` name or none (spec R114, R115). -/
def nestReg (r : Nat) : Bool := decide (r < 48) || r = 60

/-- The value of a stream base: 0 for none. -/
def Op.streamBase (r : Nat) : Op W64 := do
  let t ← Op.look id
  if r = 60 then pure 0
  else
    match t.locAt (t.sOff r) 8 with
    | none => Op.raise { cls := 0x05, code := 0x03 }
    | some l => do
      let v ← Op.readLoc l
      pure (BitVec.ofNat 64 v)

/-- Waits until the strand's earlier loads and the entries of both queues have performed (spec R118, R222, R243). -/
def Op.loadsDone : Op Unit := Op.earlier fun a => a.q ≠ .store

/-- Reads `n` bytes at a VA as a load at strand scope that issue waits for: their value, or the VA of a line that fails its
check (spec R118, R193, R222). -/
def Op.loadNow (va : W64) (n : Nat) : Op (Except Nat Nat) := do
  Op.loadsDone
  let (segs, _) ← Op.transl va n .read 0
  let m ← Op.see fun s => s.mem
  match m.badVa segs with
  | some l => pure (.error l)
  | none => pure (.ok (m.gather segs))

/-- The VA of the line that holds a byte (spec R115). -/
def lineVa (a : W64) : W64 := bset a 0 6 0

/-- `LOOPN` (spec R114 to R116, R118). -/
def execLoopn (a : Spec) (pb : BitVec 2) (n : BitVec 8) (s : State) : Host.Outcome State Fault Refusal :=
  runOp (do
    Op.noLoop
    let va ← Op.readS a 16
    Op.hint false pb [(false, a)]
    let r ← Op.loadNow (lineVa va) 64
    match r with
    | .error l => Op.integrity l
    | .ok v => do
      let d : Line := BitVec.ofNat 512 v
      Op.raiseIf (!(nestOk d) || !(nestReg (bfld d 8 6)) || !(nestReg (bfld d 16 6))) (controlTrap 0x04)
      let p ← Op.here
      Op.onMe fun t => { t with loop := { t.loop with n := n } }
      if nestCount d = 0 then Op.goto (p + n.setWidth 32 + 1)
      else do
        let b0 ← Op.streamBase (bfld d 8 6)
        let b1 ← Op.streamBase (bfld d 16 6)
        Op.onMe fun t =>
          { t with loop := { act := true, pend := false, n := n, idx := [0, 0, 0, 0, 0, 0], desc := d, base0 := b0,
                             base1 := b1, first := p + 1, last := p + n.setWidth 32 } }
        Op.goto (p + 1)) s

/-- The indices after one more iteration: the lowest level not at its bound advances, those below it return to 0 (spec R115). -/
def nextIdx (d : Line) : Nat → List Nat → List Nat
  | _, [] => []
  | l, i :: t => if i + 1 = nestBound d l then 0 :: nextIdx d (l + 1) t else (i + 1) :: t

/-- Every index stands at its last iteration (spec R115). -/
def lastIdx (d : Line) : Nat → List Nat → Bool
  | _, [] => true
  | l, i :: t => i + 1 = nestBound d l && lastIdx d (l + 1) t

/-- The value of stream `j` at an index tuple (spec R115). -/
def streamAt (l : LoopSt) (j : Nat) (idx : List Nat) : W64 :=
  (if j = 0 then l.base0 else l.base1) + BitVec.ofInt 64 (nestOff l.desc j idx 0)

/-- Writes a stream register: an S-pipe write through the `vw.s` in force (spec R115). -/
def Op.streamPut (r : Nat) (v : W64) : Op Unit := do
  let t ← Op.look id
  if r = 60 then pure ()
  else
    match t.locAt (t.sOff r) 8 with
    | none => Op.raise { cls := 0x05, code := 0x03 }
    | some l => Op.writeLoc l v.toNat

/-- The step of an iteration end, taken at the issue of packet first, word 0 (spec R115). Both names are checked first. -/
def Op.iterate : Op Unit := do
  let t ← Op.look id
  let l := t.loop
  let r0 := bfld l.desc 8 6
  let r1 := bfld l.desc 16 6
  let past (r : Nat) : Bool := r ≠ 60 && (t.locAt (t.sOff r) 8).isNone
  Op.raiseIf (past r0 || past r1) { cls := 0x05, code := 0x03 }
  let idx := nextIdx l.desc 0 l.idx
  Op.streamPut r0 (streamAt l 0 idx)
  Op.streamPut r1 (streamAt l 1 idx)
  Op.onMe fun u => { u with loop := { u.loop with idx := idx, pend := false } }

/-! ### Suspension, spawning, stages and retirement -/

/-- `SUSPEND` (spec R119). -/
def execSuspend (s : State) : Host.Outcome State Fault Refusal := runOp (Op.stopAfter (.suspend 1 false)) s

/-- `YIELD` (spec R119). -/
def execYield (s : State) : Host.Outcome State Fault Refusal :=
  runOp (do
    let y ← Op.see fun s => s.yieldsTo s.view
    if y then Op.stopAfter (.suspend 2 false) else pure ()) s

/-- A `SPAWN` operand is out of range (spec R120). -/
def spawnBad (t : Strand) (a b : W64) : Bool :=
  bfld a 43 21 ≠ 0 || decide (t.id.bprio.toNat < bfld a 40 3) || decide (bfld a 32 8 < t.id.stage.toNat) || bfld b 0 8 ≠ 0

/-- The last 1 KiB of the frame, read at issue, as 256-byte units from its start (spec R120). -/
def Op.argUnits : Nat → Nat → Op (SMap Vec)
  | 0, _ => pure []
  | k + 1, u => do
    let t ← Op.look id
    let v ← Op.readLoc (.reg (t.unit (t.win.f - 4 + u)) 0 256)
    let r ← Op.argUnits k (u + 1)
    pure (SMap.set 0 r u (BitVec.ofNat 2048 v))

/-- The child of a `SPAWN` (spec R22, R27, R120). -/
def spawnChild (t : Strand) (l : BitVec 2048) (a b : W64) (args : SMap Vec) (gate : Option (Nat × Nat)) : Strand :=
  let c := newStrand
    { launch := t.id.launch, stage := BitVec.ofNat 8 (bfld a 32 8), nstr := t.id.nstr, ngangs := t.id.ngangs, cls := t.id.cls,
      bprio := BitVec.ofNat 3 (bfld a 40 3), spawned := true, triggered := t.id.triggered, trigDone := t.id.triggered,
      pasid := t.id.pasid, part := t.id.part }
    { lpbFramesAt l b.toNat with wsize := t.fr.wsize, spad := t.fr.spad } (BitVec.ofNat 32 (bfld a 0 32)) 0 0
  { c with regs := args, sch := { c.sch with gate := gate } }

/-- `SPAWN` (spec R27, R105, R120, R135): the child waits until the spawner's earlier accesses have performed and the fabric port holds none
of them back. A `SPAWN` that waited for an entry issues again when its strand resumes, and reads its operands and its argument bytes then
(log entry 85). -/
def execSpawn (a b : Spec) (pb : BitVec 2) (s : State) : Host.Outcome State Fault Refusal :=
  runOp (do
    let x ← Op.readS a 16
    let y ← Op.readS b 10
    Op.hint false pb [(false, a), (false, b)]
    let t ← Op.look id
    Op.raiseIf (spawnBad t x y) (controlTrap 0x02)
    let args ← Op.argUnits 4 0
    let room ← Op.see fun s => s.entriesFor 1 (bfld x 40 3)
    if !room && !t.sch.grant then Op.stop (.poolFull (bfld x 40 3))
    else do
      Op.onMe fun u => { u with sch := { u.sch with grant := false } }
      let waits ← Op.see fun s => decide (s.me.q.accs ≠ [] ∨ s.heldIds s.cur ≠ [])
      let id ← if waits then Op.enqueue .both .mark none false 3 true else pure 0
      let me ← Op.see fun s => s.cur
      let l ← Op.see fun s => (s.node t.id.launch.toNat).lpb
      Op.change fun s =>
        let (sid, s1) := s.addStrand (spawnChild t l x y args (if waits then some (me, id) else none))
        s1.toPool sid t.id.launch.toNat (bfld x 32 8)) s

/-- The release of `TRIG` has performed (spec R29). -/
def State.trigDone (s : State) (sid : Nat) : State :=
  match s.strand? sid with
  | none => s
  | some t =>
    (s.setStrand sid { t with id := { t.id with triggered := true, trigDone := true } }).nodeCheck t.id.launch.toNat

/-- The release of `EXIT` has performed: the strand is EXITED and counts for its node and its stage gang; an engine trap that came after its
`EXIT` issued has no strand left to go to (spec R29, R34, R129, R254, R296). -/
def State.exitDone (s : State) (sid : Nat) : State :=
  match s.strand? sid with
  | none => s
  | some t =>
    let s1 := s.setStrand sid { t with id := { t.id with state := 7 }, trap := { t.trap with pending := [] } }
    (((s1.keepIdent sid t.id).leaveGang sid t.fp.flags).orphanTraps t).afterStrand t.id.launch.toNat

/-- `TRIG`: a release at device scope; a second one has no effect (spec R29, R121). -/
def execTrig (s : State) : Host.Outcome State Fault Refusal :=
  runOp (do
    let done ← Op.look fun t => t.id.triggered
    if done then pure ()
    else do
      Op.onMe fun t => { t with id := { t.id with triggered := true } }
      let _ ← Op.enqueue .both .trig none false 3 true) s

/-- `EXIT`: delivers engine traps pending, then a release at device scope (spec R29, R121, R129). -/
def execExit (s : State) : Host.Outcome State Fault Refusal :=
  runOp (do
    Op.deliver fun _ => true
    let _ ← Op.enqueue .both .exit none false 3 true) s

/-- `STAGE`: delivers engine traps pending; then the strand enters the next stage pool once its accesses have performed
(spec R28, R116, R121, R129). -/
def execStage (s : State) : Host.Outcome State Fault Refusal :=
  runOp (do
    Op.noLoop
    let st ← Op.look fun t => t.id.stage
    Op.raiseIf (st = 255) (controlTrap 0x01)
    Op.deliver fun _ => true
    Op.stopAfter .stage) s

/-- `NOP` (spec R122). -/
def execNop (s : State) : Host.Outcome State Fault Refusal := runOp (pure ()) s

end Sys2Proof.Machine
end

