-- ==== Sys2Proof/Machine/VecFloat.lean ====
section
/-! DEFINITION. Vector floating point: the VF class (spec R150 to R169, R305). -/

namespace Sys2Proof.Machine

/-! ### Lanes -/

/-- The `lane` operand for a source width (spec R150). -/
def laneVec (w : Nat) : Vec := vpack w (List.range (2048 / w))

/-- The elements of a vector at a width (spec R151). -/
def elems (w : Nat) (v : Vec) : List Nat := lanes w (2048 / w) v.toNat

/-- Pairs lanes of two lists. -/
def zip2 (g : Nat → Nat → Nat × FlagSet) : List Nat → List Nat → List (Nat × FlagSet)
  | a :: t, b :: u => g a b :: zip2 g t u
  | _, _ => []

/-- Triples lanes of three lists. -/
def zip3 (g : Nat → Nat → Nat → Nat × FlagSet) : List Nat → List Nat → List Nat → List (Nat × FlagSet)
  | a :: t, b :: u, c :: v => g a b c :: zip3 g t u v
  | _, _, _ => []

/-- Results packed, with their flags (spec R154). -/
def packRes (w : Nat) (l : List (Nat × FlagSet)) : Vec × FlagSet := (vpack w (l.map Prod.fst), flagsOf l)

/-- What rounding takes from the word and the strand (spec R70, R71). -/
def fctl (f : FForm) (t : Strand) : RCtl := { rm := t.rmode f.rne, fzo := f.fzo, sat := f.sat }

/-- A lane read as a value of the word's type, flushed as FZI says (spec R71). -/
def fval (f : FForm) (x : Nat) : FVal := flushIn f.fzi f.typ.toNat (unpackVal 0 f.typ.toNat x)

/-- A source a of a VF form at a width. -/
def Op.va (f : FForm) (w : Nat) : Op Vec := Op.readV f.a 10 (laneVec w)

/-- A source b of a VF form at a width. -/
def Op.vb (f : FForm) (w : Nat) : Op Vec := Op.readV f.b 4 (laneVec w)

/-- A source c of a VF form at a width. -/
def Op.vc (f : FForm) (w : Nat) : Op Vec := Op.readV f.c 54 (laneVec w)

/-- The result and flags of a V word (spec R154). -/
def Op.vres (f : FForm) (r : Vec × FlagSet) : Op Unit := do
  Op.flags r.2
  Op.writeV f.d 16 f.lat.toNat r.1

/-- A lane-by-lane form with one source (spec R156). -/
def Op.form1 (f : FForm) (g : RCtl → Nat → Nat × FlagSet) : Op Unit := do
  let w := tyW f.typ.toNat
  let a ← Op.va f w
  Op.hint f.ru f.pb [(true, f.a)]
  let c ← Op.look (fctl f)
  Op.vres f (packRes w ((elems w a).map (g c)))

/-- A lane-by-lane form with two sources (spec R156). -/
def Op.form2 (f : FForm) (g : RCtl → Nat → Nat → Nat × FlagSet) : Op Unit := do
  let w := tyW f.typ.toNat
  let a ← Op.va f w
  let b ← Op.vb f w
  Op.hint f.ru f.pb [(true, f.a), (true, f.b)]
  let c ← Op.look (fctl f)
  Op.vres f (packRes w (zip2 (g c) (elems w a) (elems w b)))

/-- A lane-by-lane form with three sources (spec R156). -/
def Op.form3 (f : FForm) (g : RCtl → Nat → Nat → Nat → Nat × FlagSet) : Op Unit := do
  let w := tyW f.typ.toNat
  let a ← Op.va f w
  let b ← Op.vb f w
  let x ← Op.vc f w
  Op.hint f.ru f.pb [(true, f.a), (true, f.b), (true, f.c)]
  let c ← Op.look (fctl f)
  Op.vres f (packRes w (zip3 (g c) (elems w a) (elems w b) (elems w x)))

/-! ### Lane results -/

/-- Addition and subtraction of lanes (spec R156). -/
def addLane (f : FForm) (sub : Bool) (c : RCtl) (a b : Nat) : Nat × FlagSet :=
  roundOp c f.typ.toNat (addExact (c.rm = .rdn) (fval f a) ((fval f b).negIf sub))

/-- Multiplication of lanes (spec R156). -/
def mulLane (f : FForm) (c : RCtl) (a b : Nat) : Nat × FlagSet := roundOp c f.typ.toNat (mulExact (fval f a) (fval f b))

/-- The fused forms: ±(a · b) ± c with one rounding (spec R156). -/
def fmaLane (f : FForm) (negP negC : Bool) (c : RCtl) (a b x : Nat) : Nat × FlagSet :=
  roundOp c f.typ.toNat (fmaExact (c.rm = .rdn) ((fval f a).negIf negP) (fval f b) ((fval f x).negIf negC))

/-- Division of lanes (spec R158). -/
def divLane (f : FForm) (c : RCtl) (a b : Nat) : Nat × FlagSet := roundOp c f.typ.toNat (divExact (fval f a) (fval f b))

/-- Square root of a lane (spec R158). -/
def sqrtLane (f : FForm) (c : RCtl) (a : Nat) : Nat × FlagSet := roundOp c f.typ.toNat (sqrtExact (fval f a))

/-- The exponent operand of `FSCALE` (spec R158). -/
def scaleExp (w b : Nat) : Int := max (-4096) (min 4096 (sval w b))

/-- `FSCALE` of a lane (spec R158). -/
def scaleLane (f : FForm) (c : RCtl) (a b : Nat) : Nat × FlagSet :=
  roundTo c f.typ.toNat ((fval f a).scale (scaleExp (tyW f.typ.toNat) b))

/-- `FROUND` of a lane: no flag but NV for a signalling NaN (spec R158). -/
def roundLane (f : FForm) (c : RCtl) (a : Nat) : Nat × FlagSet :=
  let t := f.typ.toNat
  match fval f a with
  | .fin neg m e => if m = 0 then (signBit t neg, 0) else ((roundTo {} t (.fin neg (roundInt c.rm neg m e).1 0)).1, 0)
  | v => roundTo {} t v

/-- The lesser of two values that are not NaN, −0 below +0 (spec R157). -/
def fLess (x y : FVal) : Bool := fLt x y || (fEq x y && x.neg && !y.neg)

/-- `FMIN` and `FMAX` of values of a type, with no flushing (spec R157). -/
def minmaxVal (t : Nat) (mx : Bool) (x y : FVal) : Nat × FlagSet :=
  let f := flagIf (x.isSig || y.isSig) fNV
  if x.isNaN && y.isNaN then (canonNaN t, f)
  else if x.isNaN then ((roundTo {} t y).1, f)
  else if y.isNaN then ((roundTo {} t x).1, f)
  else if fLess x y ^^ mx then ((roundTo {} t x).1, f) else ((roundTo {} t y).1, f)

/-- `FMIN` and `FMAX` of lanes (spec R157). -/
def minmaxLane (f : FForm) (mx : Bool) (_ : RCtl) (a b : Nat) : Nat × FlagSet := minmaxVal f.typ.toNat mx (fval f a) (fval f b)

/-- The condition of `FCMP`, with its flag (spec R92, R160). -/
def cmpHolds (cc : Nat) (x y : FVal) : Bool × FlagSet :=
  let un := x.isNaN || y.isNaN
  let sig := x.isSig || y.isSig
  let nv := flagIf (if 2 ≤ cc && cc ≤ 5 then un else sig) fNV
  let r :=
    if cc = 0 then !un && fEq x y else if cc = 1 then un || !(fEq x y) else if cc = 2 then !un && fLt x y
    else if cc = 3 then !un && (fLt x y || fEq x y) else if cc = 4 then !un && fLt y x
    else if cc = 5 then !un && (fLt y x || fEq x y) else if cc = 6 then un else !un
  (r, nv)

/-- A lane of all ones or zeros. -/
def maskLane (w : Nat) (b : Bool) : Nat := if b then 2 ^ w - 1 else 0

/-- `FCMP` of lanes (spec R160). -/
def cmpLane (f : FForm) (_ : RCtl) (a b : Nat) : Nat × FlagSet :=
  let (r, nv) := cmpHolds f.cc.toNat (fval f a) (fval f b)
  (maskLane (tyW f.typ.toNat) r, nv)

/-- The class bit of a value (spec R160). -/
def classBit (t : Nat) (v : FVal) : Nat :=
  match v with
  | .nan s => if s then 8 else 9
  | .inf neg => if neg then 0 else 7
  | .fin neg m _ =>
    if m = 0 then (if neg then 3 else 4) else if m < 2 ^ (fmtOf t).mb then (if neg then 2 else 5) else (if neg then 1 else 6)

/-! ### Conversions -/

/-- The format a LADDER code resolves to for a strand: the factor or solve format of the rung in force of its context
(spec R162, R297); none when the strand runs no stage. -/
def State.resolve (s : State) (t : Nat) : Option Nat :=
  if !(isLadder t) then some t
  else if !(bbit s.view.bind 31) then none
  else
    match (s.rlc (bfld s.view.bind 0 4)).queue with
    | [] => none
    | b :: _ =>
      let g := blkRung b.blk (bfld s.view.bind 6 2)
      some (if t = 25 then nfld g 0 5 else nfld g 5 5)

/-- Resolves a field that may hold a LADDER code; a strand with no stage, or a format the form does not take, traps
(spec R162). -/
def Op.format (code : BitVec 5) (lo : Nat) (tys : List Nat) : Op Nat := do
  let r ← Op.see fun s => s.resolve code.toNat
  match r with
  | none => Op.raise (illegalField lo 5 0)
  | some t => if tys.contains t then pure t else Op.raise (illegalField lo 5 0)

/-- Floating types `FCVT` writes, once resolved (spec R162). -/
def tyCvtOut : List Nat := [16, 17, 18, 19, 20, 21, 22, 23]
/-- Types `FCVT` reads, once resolved (spec R162). -/
def tyCvtIn : List Nat := [16, 17, 18, 19, 20, 21, 22, 23, 24]

/-- The element pattern of a conversion: the part of a or of d (spec R161). `old` is d as read. -/
def cvtParts (ws wd p : Nat) (g : Nat → Nat × FlagSet) (a old : Vec) : Vec × FlagSet :=
  if ws ≤ wd then
    let n := 2048 / wd
    packRes wd ((rangeFrom (p * n) n).map fun i => g (lane ws a.toNat i))
  else
    let n := 2048 / ws
    let l := (elems ws a).map g
    (bset old (p * n * wd) (n * wd) (packLanes wd (l.map Prod.fst)), flagsOf l)

/-- A conversion once its formats are known: part check, sources, result (spec R161). -/
def Op.convert (f : FForm) (td ts : Nat) (tab : Bool) (g : RCtl → Nat → Nat → Nat × FlagSet) : Op Unit := do
  let ws := tyW ts
  let wd := tyW td
  let p := f.cc.toNat
  Op.raiseIf (decide (ratio ws wd ≤ p)) (illegalField 34 4 0)
  let reads := cvtReadsD f.typ.toNat f.typ2.toNat
  let old ← if wd < ws then Op.readV f.d 16 0 else pure 0
  let a ← Op.va f ws
  let b ← if tab then Op.vb f ws else pure 0
  Op.hint f.ru f.pb ((if reads then [(true, f.d)] else []) ++ [(true, f.a)] ++ (if tab then [(true, f.b)] else []))
  let c ← Op.look (fctl f)
  Op.vres f (cvtParts ws wd p (g c (bfld b 0 256)) a old)

/-! ### Self-describing blocks -/

/-- The format code of an SD block for a type (spec R67). -/
def sdCode (t : Nat) : Nat :=
  if t = 0 then 1 else if t = 4 then 2 else if t = 20 then 3 else if t = 21 then 4 else if t = 23 then 5 else if t = 22 then 6
  else if t = 8 then 7 else if t = 19 then 8 else 9

/-- The type of an SD format code; none for an unassigned one (spec R67). -/
def sdType (c : Nat) : Option Nat :=
  if c = 1 then some 0 else if c = 2 then some 4 else if c = 3 then some 20 else if c = 4 then some 21 else if c = 5 then some 23
  else if c = 6 then some 22 else if c = 7 then some 8 else if c = 8 then some 19 else if c = 9 then some 18
  else if 0xC0 ≤ c && c ≤ 0xCF then some 24 else none

/-- The element count of an SD block at a width (spec R67). -/
def sdCount (w : Nat) : Nat := 496 / w

/-- The largest magnitude `FPACKSD` scales to, as `m · 2^e` (spec R165). -/
def sdLimit (t : Nat) : Nat × Int :=
  if t = 0 then (127, 0) else if t = 4 then (255, 0) else if t = 8 then (7, 0) else if t = 23 then (6310, -6)
  else match unpackBin t (maxFin t) with
    | .fin _ m e => (m, e)
    | _ => (0, 0)

/-- The larger of two magnitudes. -/
def magMax (x y : Nat × Int) : Nat × Int := if magLe x.1 x.2 y.1 y.2 then y else x

/-- The largest finite magnitude of a list of values; zero when none is finite (spec R165). -/
def finMax : List FVal → Nat × Int
  | [] => (0, 0)
  | .fin _ m e :: t => magMax (m, e) (finMax t)
  | _ :: t => finMax t

/-- The exponent of an SD block: the least k with M · 2^−k ≤ L, held to −128…127 (spec R165). -/
def sdExp (t : Nat) (l : List FVal) : Int :=
  let (m, e) := finMax l
  if m = 0 then 0
  else
    let (n, u) := sdLimit t
    let k0 := (e + bitLen m) - (u + bitLen n)
    let k := if magLe m e n (u + k0) then k0 else k0 + 1
    min (max k (-128)) 127

/-- One element of an SD block as its type writes it (spec R165). -/
def sdElem (c : RCtl) (t : Nat) (v : FVal) : Nat × FlagSet := if t ≤ 8 then toInt c.rm t v else roundTo c t v

/-- The 64 bytes of an SD block and the flags (spec R165). -/
def sdBlock (c : RCtl) (t : Nat) (l : List FVal) : Nat × FlagSet :=
  let w := tyW t
  let xs := l.take (sdCount w)
  let k := sdExp t xs
  let es := xs.map fun v => sdElem c t (v.scale (-k))
  (sdCode t + wrapN 8 k * 256 + packLanes w (es.map Prod.fst) * 2 ^ 16, flagsOf es)

/-! ### Sums -/

/-- Adds neighbours pairwise, rounding each sum; `k` bounds the levels (spec R75, R167). -/
def treeSum (c : RCtl) (t : Nat) : Nat → List FVal → FVal × FlagSet
  | 0, l => (l.headD (.fin false 0 0), 0)
  | k + 1, l =>
    match l with
    | [] => (.fin false 0 0, 0)
    | [x] => (x, 0)
    | _ =>
      let (r, f) := pairs l
      let (x, g) := treeSum c t k r
      (x, f ||| g)
where
  /-- One level of the tree. -/
  pairs : List FVal → List FVal × FlagSet
    | x :: y :: r =>
      let (s, f) := roundOp c t (addExact (c.rm = .rdn) x y)
      let (q, g) := pairs r
      (unpackVal 0 t s :: q, f ||| g)
    | l => (l, 0)

/-! ### Instructions -/

/-- `FADD`: a + b (spec R156). -/
def execFadd (f : FForm) (s : State) : Host.Outcome State Fault Refusal :=
  runOp (Op.form2 f (addLane f false)) s

/-- `FSUB`: a − b (spec R156). -/
def execFsub (f : FForm) (s : State) : Host.Outcome State Fault Refusal :=
  runOp (Op.form2 f (addLane f true)) s

/-- `FMUL`: a × b (spec R156). -/
def execFmul (f : FForm) (s : State) : Host.Outcome State Fault Refusal :=
  runOp (Op.form2 f (mulLane f)) s

/-- `FDIV`: a / b (spec R158). -/
def execFdiv (f : FForm) (s : State) : Host.Outcome State Fault Refusal :=
  runOp (Op.form2 f (divLane f)) s

/-- `FSCALE`: a × 2^e (spec R158). -/
def execFscale (f : FForm) (s : State) : Host.Outcome State Fault Refusal :=
  runOp (Op.form2 f (scaleLane f)) s

/-- `FMIN`: the lesser lane (spec R157). -/
def execFmin (f : FForm) (s : State) : Host.Outcome State Fault Refusal :=
  runOp (Op.form2 f (minmaxLane f false)) s

/-- `FMAX`: the greater lane (spec R157). -/
def execFmax (f : FForm) (s : State) : Host.Outcome State Fault Refusal :=
  runOp (Op.form2 f (minmaxLane f true)) s

/-- `FCPYS`: a with the sign of b (spec R157). -/
def execFcpys (f : FForm) (s : State) : Host.Outcome State Fault Refusal :=
  runOp (Op.form2 f (fun _ a b => (a % 2 ^ (tyW f.typ.toNat - 1) + b / 2 ^ (tyW f.typ.toNat - 1) * 2 ^ (tyW f.typ.toNat - 1), 0))) s

/-- `FCMP`: lanes of all ones where the condition holds (spec R160). -/
def execFcmp (f : FForm) (s : State) : Host.Outcome State Fault Refusal :=
  runOp (Op.form2 f (cmpLane f)) s

/-- `FMA`: a × b + c, one rounding (spec R156). -/
def execFma (f : FForm) (s : State) : Host.Outcome State Fault Refusal :=
  runOp (Op.form3 f (fmaLane f false false)) s

/-- `FMS`: a × b − c, one rounding (spec R156). -/
def execFms (f : FForm) (s : State) : Host.Outcome State Fault Refusal :=
  runOp (Op.form3 f (fmaLane f false true)) s

/-- `FNMA`: −(a × b) + c, one rounding (spec R156). -/
def execFnma (f : FForm) (s : State) : Host.Outcome State Fault Refusal :=
  runOp (Op.form3 f (fmaLane f true false)) s

/-- `FNMS`: −(a × b) − c, one rounding (spec R156). -/
def execFnms (f : FForm) (s : State) : Host.Outcome State Fault Refusal :=
  runOp (Op.form3 f (fmaLane f true true)) s

/-- `FSQRT`: square root of lanes (spec R158). -/
def execFsqrt (f : FForm) (s : State) : Host.Outcome State Fault Refusal :=
  runOp (Op.form1 f (sqrtLane f)) s

/-- `FROUND`: lanes rounded to integral values (spec R158). -/
def execFround (f : FForm) (s : State) : Host.Outcome State Fault Refusal :=
  runOp (Op.form1 f (roundLane f)) s

/-- `FRCP`: faithful reciprocal (spec R159). -/
def execFrcp (f : FForm) (s : State) : Host.Outcome State Fault Refusal :=
  runOp (Op.form1 f (fun c a => frcp c.fzo f.typ.toNat a (fval f a))) s

/-- `FRSQ`: faithful reciprocal square root (spec R159). -/
def execFrsq (f : FForm) (s : State) : Host.Outcome State Fault Refusal :=
  runOp (Op.form1 f (fun c a => frsq c.fzo f.typ.toNat a (fval f a))) s

/-- `FEXP2`: approximate power of two (spec R159). -/
def execFexp2 (f : FForm) (s : State) : Host.Outcome State Fault Refusal :=
  runOp (Op.form1 f (fun c a => fexp2 c.fzo f.typ.toNat a (fval f a))) s

/-- `FLOG2`: approximate logarithm (spec R159). -/
def execFlog2 (f : FForm) (s : State) : Host.Outcome State Fault Refusal :=
  runOp (Op.form1 f (fun c a => flog2 c.fzo f.typ.toNat a (fval f a))) s

/-- `FTANH`: approximate hyperbolic tangent (spec R159). -/
def execFtanh (f : FForm) (s : State) : Host.Outcome State Fault Refusal :=
  runOp (Op.form1 f (fun c a => ftanh c.fzo f.typ.toNat a (fval f a))) s

/-- `FABS`: the sign bit cleared (spec R157). -/
def execFabs (f : FForm) (s : State) : Host.Outcome State Fault Refusal :=
  runOp (Op.form1 f (fun _ a => (a % 2 ^ (tyW f.typ.toNat - 1), 0))) s

/-- `FNEG`: the sign bit inverted (spec R157). -/
def execFneg (f : FForm) (s : State) : Host.Outcome State Fault Refusal :=
  runOp (Op.form1 f (fun _ a => (a ^^^ 2 ^ (tyW f.typ.toNat - 1), 0))) s

/-- `FCLASS`: the class bit of each lane (spec R160). -/
def execFclass (f : FForm) (s : State) : Host.Outcome State Fault Refusal :=
  runOp (Op.form1 f (fun _ a => (2 ^ classBit f.typ.toNat (unpackVal 0 f.typ.toNat a), 0))) s

/-- `FCVT` (spec R161, R162): the formats resolved and checked at issue, then the conversion. -/
def execFcvt (f : FForm) (s : State) : Host.Outcome State Fault Refusal :=
  runOp (do
    let ts ← Op.format f.typ2 38 tyCvtIn
    let td ← Op.format f.typ 49 tyCvtOut
    Op.raiseIf (f.sat && td ≠ 20 && td ≠ 21) (illegalField 43 1 0)
    Op.raiseIf (ts ≠ 24 && f.b ≠ 60) (illegalField 4 6 0)
    Op.convert f td ts (ts = 24) fun c tab x => roundTo c td (flushIn f.fzi ts (unpackVal tab ts x))) s

/-- `FCVTI` (spec R58, R163). -/
def execFcvti (f : FForm) (s : State) : Host.Outcome State Fault Refusal :=
  runOp (Op.convert f f.typ.toNat f.typ2.toNat false fun c _ x =>
    toInt c.rm f.typ.toNat (flushIn f.fzi f.typ2.toNat (unpackVal 0 f.typ2.toNat x))) s

/-- `ICVTF` (spec R58, R163). -/
def execIcvtf (f : FForm) (s : State) : Host.Outcome State Fault Refusal :=
  runOp (Op.convert f f.typ.toNat f.typ2.toNat false fun c _ x => roundTo c f.typ.toNat (unpackVal 0 f.typ2.toNat x)) s

/-- The value of an SC24 scale of an exponent field 1 to 254 (spec R66). -/
def sc24 (sc : Nat) : FVal := .fin false (65536 + nfld sc 0 16) ((nfld sc 16 8 : Int) - 127 - 16)

/-- One element of `FBSCALE` (spec R164). -/
def bscaleElem (c : RCtl) (sc : Nat) (v : FVal) : Nat × FlagSet :=
  if nfld sc 16 8 = 0 then (0, 0)
  else if nfld sc 16 8 = 255 || v.isNaN then (canonNaN 17, fNV)
  else roundOp c 17 (mulExact v (sc24 sc))

/-- `FBSCALE` (spec R66, R164); `lane` as a or b has the width of type2 (log entry 80). -/
def execFbscale (f : FForm) (s : State) : Host.Outcome State Fault Refusal :=
  runOp (do
    let t2 := f.typ2.toNat
    let w := tyW t2
    let a ← Op.va f w
    let b ← Op.vb f w
    Op.hint f.ru f.pb [(true, f.a), (true, f.b)]
    let c ← Op.look (fctl f)
    let sc := lane 32 b.toNat f.c.toNat
    Op.vres f (packRes 32 ((rangeFrom (f.cc.toNat * 64) 64).map fun i =>
      bscaleElem c sc (flushIn f.fzi t2 (unpackVal 0 t2 (lane w a.toNat i)))))) s

/-- `FPACKSD` (spec R67, R165). -/
def execFpacksd (f : FForm) (s : State) : Host.Outcome State Fault Refusal :=
  runOp (do
    let t := f.typ.toNat
    let four := ty4.contains t
    let old ← Op.readV f.d 16 0
    let a ← Op.va f 32
    let b ← if four then Op.vb f 32 else pure 0
    Op.hint f.ru f.pb ([(true, f.d), (true, f.a)] ++ (if four then [(true, f.b)] else []))
    let c ← Op.look (fctl f)
    let xs := (elems 32 a ++ elems 32 b).map fun x => flushIn f.fzi 17 (unpackVal 0 17 x)
    let (blk, fl) := sdBlock c t xs
    Op.vres f (bset old (512 * f.cc.toNat) 512 blk, fl)) s

/-- `FUNPACKSD` (spec R67, R166): an unassigned format byte traps `SD_CODE`; `lane` as a or b has 32 bits (log entry 80). -/
def execFunpacksd (f : FForm) (s : State) : Host.Outcome State Fault Refusal :=
  runOp (do
    let a ← Op.va f 32
    let b ← Op.vb f 32
    Op.hint f.ru f.pb [(true, f.a), (true, f.b)]
    let c ← Op.look (fctl f)
    let blk := bfld a (512 * f.cc.toNat) 512
    match sdType (nfld blk 0 8) with
    | none => Op.raise { cls := 0x07, code := 0x01 }
    | some t => do
      let w := tyW t
      let k := sval 8 (nfld blk 8 8)
      Op.vres f (packRes 32 ((rangeFrom (64 * f.c.toNat) 64).map fun j =>
        if j < sdCount w then
          roundTo c 17 ((flushIn f.fzi t (unpackVal (bfld b 0 256) t (lane w (blk >>> 16) j))).scale k)
        else (0, 0)))) s

/-- `FSUMR` (spec R167). -/
def execFsumr (f : FForm) (s : State) : Host.Outcome State Fault Refusal :=
  runOp (do
    let t := f.typ.toNat
    let w := tyW t
    let a ← Op.va f w
    Op.hint f.ru f.pb [(true, f.a)]
    let c ← Op.look (fctl f)
    let (x, fl) := treeSum c t 11 ((elems w a).map (fval f))
    let (r, _) := roundTo {} t x
    Op.vres f (BitVec.ofNat 2048 r, fl)) s

/-- One lane of `FDOT` (spec R168). -/
def dotLane (f : FForm) (c : RCtl) (r w : Nat) (a b : Vec) (x j : Nat) : Nat × FlagSet :=
  let t2 := f.typ2.toNat
  let qs := (rangeFrom (r * j) r).map fun i =>
    mulExact (flushIn f.fzi t2 (unpackVal 0 t2 (lane w a.toNat i))) (flushIn f.fzi t2 (unpackVal 0 t2 (lane w b.toNat i)))
  let fl := qs.foldl (fun g q => g ||| q.2) 0
  let (t, g) := treeSum {} 17 4 (qs.map Prod.fst)
  let (y, h) := roundOp c 17 (addExact (c.rm = .rdn) (flushIn f.fzi 17 (unpackVal 0 17 x)) t)
  (y, fl ||| g ||| h)

/-- `FDOT` (spec R168). -/
def execFdot (f : FForm) (s : State) : Host.Outcome State Fault Refusal :=
  runOp (do
    let w := tyW f.typ2.toNat
    let a ← Op.va f w
    let b ← Op.vb f w
    let x ← Op.vc f 32
    Op.hint f.ru f.pb [(true, f.a), (true, f.b), (true, f.c)]
    let c ← Op.look (fctl f)
    Op.vres f (packRes 32 ((List.range 64).map fun j => dotLane f c (32 / w) w a b (lane 32 x.toNat j) j))) s

/-- The squared norm of a vector in f64, and its flags (spec R305). -/
def normOf (f : FForm) (w : Nat) (a : Vec) : FVal × FlagSet :=
  let qs := (elems w a).map fun x => roundOp {} 16 (mulExact (fval f x) (fval f x))
  let (t, g) := treeSum {} 16 11 (qs.map fun q => unpackVal 0 16 q.1)
  (t, flagsOf qs ||| g)

/-- `NORMACC` (spec R305): only a RESIDUAL stage strand runs it; no register is written. -/
def execNormacc (f : FForm) (s : State) : Host.Outcome State Fault Refusal :=
  runOp (do
    let b ← Op.look fun t => t.bind
    Op.raiseIf (!(bbit b 31) || bfld b 4 2 ≠ 2) { cls := 0x04, code := 0 }
    let w := tyW f.typ.toNat
    let a ← Op.va f w
    Op.hint f.ru f.pb [(true, f.a)]
    let (t, fl) := normOf f w a
    let x := bfld b 0 4
    let old ← Op.see fun s => SMap.get 0 (s.rlc x).norm f.c.toNat
    let (y, g) := roundOp {} 16 (addExact false (unpackVal 0 16 old.toNat) t)
    Op.flags (fl ||| g)
    Op.change fun s =>
      let v := s.rlc x
      s.setRlc x { v with norm := SMap.set 0 v.norm f.c.toNat (BitVec.ofNat 64 y) }) s

end Sys2Proof.Machine
end

