-- ==== Sys2Proof/Machine/VecInt.lean ====
section
/-! DEFINITION. Vector integers: the VI class (spec R170 to R178). -/

namespace Sys2Proof.Machine

/-! ### Elements -/

/-- An integer type is signed: `i8` to `i64`, `i4` (spec R57, R91). -/
def tySigned (t : Nat) : Bool := t ≤ 3 || t = 8

/-- An element read as its type gives (spec R170). -/
def ival (t x : Nat) : Int := if tySigned t then sval (tyW t) x else (x : Int)

/-- An exact integer held to a range, with the SAT flag (spec R170). -/
def clampTo (lo hi x : Int) : Int × FlagSet := (min (max x lo) hi, flagIf (decide (x < lo) || decide (hi < x)) fSAT)

/-- An exact integer written to a type: wrapped, or clamped when SAT is set (spec R170). -/
def outInt (sat : Bool) (t : Nat) (x : Int) : Nat × FlagSet :=
  if sat then
    let r := clampTo (tmin t) (tmax t) x
    (wrapN (tyW t) r.1, r.2)
  else (wrapN (tyW t) x, 0)

/-- Source a as 256 bytes at a width. -/
def Op.ia (f : VForm) (w : Nat) : Op Vec := Op.readV f.a 10 (laneVec w)

/-- Source b as 256 bytes at a width. -/
def Op.ib (f : VForm) (w : Nat) : Op Vec := Op.readV f.b 4 (laneVec w)

/-- Source c as 256 bytes at a width. -/
def Op.ic (f : VForm) (w : Nat) : Op Vec := Op.readV f.c 54 (laneVec w)

/-- The result and flags of a VI word (spec R154). -/
def Op.ires (f : VForm) (r : Vec × FlagSet) : Op Unit := do
  Op.flags r.2
  Op.writeV f.d 16 f.lat.toNat r.1

/-- A form with one vector source: the result from its elements. -/
def Op.int1 (f : VForm) (g : List Nat → List (Nat × FlagSet)) : Op Unit := do
  let w := tyW f.typ.toNat
  let a ← Op.ia f w
  Op.hint f.ru f.pb [(true, f.a)]
  Op.ires f (packRes w (g (elems w a)))

/-- A form with two vector sources. -/
def Op.int2 (f : VForm) (g : Vec → Vec → Vec × FlagSet) : Op Unit := do
  let w := tyW f.typ.toNat
  let a ← Op.ia f w
  let b ← Op.ib f w
  Op.hint f.ru f.pb [(true, f.a), (true, f.b)]
  Op.ires f (g a b)

/-- A form with three vector sources. -/
def Op.int3 (f : VForm) (g : Vec → Vec → Vec → Vec × FlagSet) : Op Unit := do
  let w := tyW f.typ.toNat
  let a ← Op.ia f w
  let b ← Op.ib f w
  let c ← Op.ic f w
  Op.hint f.ru f.pb [(true, f.a), (true, f.b), (true, f.c)]
  Op.ires f (g a b c)

/-- A lane-by-lane form with two sources (spec R170). -/
def Op.lanes2 (f : VForm) (g : Nat → Nat → Nat × FlagSet) : Op Unit :=
  let w := tyW f.typ.toNat
  Op.int2 f fun a b => packRes w (zip2 g (elems w a) (elems w b))

/-- A lane-by-lane form with three sources (spec R170). -/
def Op.lanes3 (f : VForm) (g : Nat → Nat → Nat → Nat × FlagSet) : Op Unit :=
  let w := tyW f.typ.toNat
  Op.int3 f fun a b c => packRes w (zip3 g (elems w a) (elems w b) (elems w c))

/-- A result with no flag. -/
def plain (x : Nat) : Nat × FlagSet := (x, 0)

/-- The shift left of a lane (spec R170). -/
def shlLane (w a s : Nat) : Nat := if w ≤ s then 0 else a * 2 ^ s % 2 ^ w

/-- The logical shift right of a lane (spec R170). -/
def shrLane (w a s : Nat) : Nat := if w ≤ s then 0 else a / 2 ^ s

/-- The arithmetic shift right of a lane (spec R170). -/
def sarLane (w a s : Nat) : Nat := wrapN w (sval w a / ((2 ^ min s w : Nat) : Int))

/-- The condition of `VCMP` (spec R92, R172). -/
def icmp (cc : Nat) (x y : Int) : Bool :=
  if cc = 0 then x = y else if cc = 1 then x ≠ y else if cc = 2 then x < y else if cc = 3 then x ≤ y
  else if cc = 4 then y < x else y ≤ x

/-- A mask bit of a vector (spec R152). -/
def maskBit (m : Vec) (i : Nat) : Bool := bbit m i

/-! ### Forms over whole vectors -/

/-- `VDOT4` (spec R171). -/
def dot4Lane (f : VForm) (a b : Vec) (c j : Nat) : Nat × FlagSet :=
  let t2 := bfld f.imm 0 5
  let sum := (rangeFrom (4 * j) 4).foldl (fun (acc : Int) i => acc + ival t2 (lane 8 a.toNat i) * ival t2 (lane 8 b.toNat i)) 0
  outInt f.sat f.typ.toNat (ival f.typ.toNat c + sum)

/-- `VSEL` from an element index (spec R172). -/
def selFrom (m : Vec) : Nat → List Nat → List Nat → List Nat
  | i, x :: t, y :: u => (if maskBit m i then x else y) :: selFrom m (i + 1) t u
  | _, _, _ => []

/-- `VIOTA` from an element index: the counts of mask bits below (spec R172). -/
def iotaFrom (m : Vec) : Nat → Nat → Nat → List Nat
  | 0, _, _ => []
  | n + 1, i, k => k :: iotaFrom m n (i + 1) (k + b2n (maskBit m i))

/-- An element of two vectors side by side (spec R174). -/
def pairLane (w : Nat) (a b : Vec) (j : Nat) : Nat :=
  let n := 2048 / w
  if j < n then lane w a.toNat j else lane w b.toNat (j - n)

/-- The elements whose mask bits are set, from an index (spec R175). -/
def compressFrom (m : Vec) : Nat → List Nat → List Nat
  | _, [] => []
  | i, x :: t => if maskBit m i then x :: compressFrom m (i + 1) t else compressFrom m (i + 1) t

/-- Elements dealt out to the set mask bits (spec R175). -/
def expandFrom (m : Vec) : Nat → Nat → List Nat → List Nat
  | 0, _, _ => []
  | n + 1, i, l =>
    if maskBit m i then l.headD 0 :: expandFrom m n (i + 1) l.tail else 0 :: expandFrom m n (i + 1) l

/-- The identity of a scan (spec R176). -/
def scanId (t op : Nat) : Int :=
  if op = 3 then wrapN (tyW t) (-1) else if op = 4 then tmax t else if op = 5 then tmin t else 0

/-- One step of a scan: the accumulator as an element (spec R176). -/
def scanOp (sat : Bool) (t op acc x : Nat) : Nat × FlagSet :=
  if op = 0 then outInt sat t (ival t acc + ival t x)
  else if op = 1 then (acc ^^^ x, 0) else if op = 2 then (acc ||| x, 0) else if op = 3 then (acc &&& x, 0)
  else if op = 4 then (if ival t acc ≤ ival t x then acc else x, 0)
  else (if ival t acc ≤ ival t x then x else acc, 0)

/-- A prefix operation; `ex` makes it exclusive (spec R176). -/
def scanFrom (sat : Bool) (t op : Nat) (ex : Bool) : Nat → List Nat → List (Nat × FlagSet)
  | _, [] => []
  | acc, x :: r =>
    let y := scanOp sat t op acc x
    (if ex then acc else y.1, y.2) :: scanFrom sat t op ex y.1 r

/-- The clamp of `VSAT` (spec R178). -/
def vsatLane (f : VForm) (x : Nat) : Nat × FlagSet :=
  let t := f.typ.toNat
  let b := bfld f.imm 0 5
  let r := clampTo (tmin b) (tmax b) (ival t x)
  (wrapN (tyW t) r.1, r.2)

/-- The sources of `VDOT4`: a and b as bytes, c as 32-bit lanes (spec R171). -/
def Op.dot4 (f : VForm) (g : Vec → Vec → Vec → Vec × FlagSet) : Op Unit := do
  let a ← Op.ia f 8
  let b ← Op.ib f 8
  let c ← Op.ic f 32
  Op.hint f.ru f.pb [(true, f.a), (true, f.b), (true, f.c)]
  Op.ires f (g a b c)

/-- The elements of a and b at the source type, one list, written at the result type (spec R178). -/
def Op.pack (f : VForm) (g : Nat → List Nat → List (Nat × FlagSet)) : Op Unit := do
  let t2 := bfld f.imm 0 5
  let w := tyW t2
  let a ← Op.ia f w
  let b ← Op.ib f w
  Op.hint f.ru f.pb [(true, f.a), (true, f.b)]
  Op.ires f (packRes (tyW f.typ.toNat) (g t2 (elems w a ++ elems w b)))

/-! ### Instructions -/

/-- `VADD`: a + b (spec R170). -/
def execVadd (f : VForm) (s : State) : Host.Outcome State Fault Refusal :=
  runOp (Op.lanes2 f fun a b => outInt f.sat f.typ.toNat (ival f.typ.toNat a + ival f.typ.toNat b)) s

/-- `VSUB`: a − b (spec R170). -/
def execVsub (f : VForm) (s : State) : Host.Outcome State Fault Refusal :=
  runOp (Op.lanes2 f fun a b => outInt f.sat f.typ.toNat (ival f.typ.toNat a - ival f.typ.toNat b)) s

/-- `VMUL`: a × b (spec R170). -/
def execVmul (f : VForm) (s : State) : Host.Outcome State Fault Refusal :=
  runOp (Op.lanes2 f fun a b => outInt f.sat f.typ.toNat (ival f.typ.toNat a * ival f.typ.toNat b)) s

/-- `VMULH`: the high half of the product (spec R170). -/
def execVmulh (f : VForm) (s : State) : Host.Outcome State Fault Refusal :=
  runOp (Op.lanes2 f fun a b => plain (wrapN (tyW f.typ.toNat) (ival f.typ.toNat a * ival f.typ.toNat b / ((2 ^ (tyW f.typ.toNat) : Nat) : Int)))) s

/-- `VMADD`: a × b + c (spec R170). -/
def execVmadd (f : VForm) (s : State) : Host.Outcome State Fault Refusal :=
  runOp (Op.lanes3 f fun a b c => outInt f.sat f.typ.toNat (ival f.typ.toNat a * ival f.typ.toNat b + ival f.typ.toNat c)) s

/-- `VDOT4`: four 8-bit products added to each 32-bit lane (spec R171). -/
def execVdot4 (f : VForm) (s : State) : Host.Outcome State Fault Refusal :=
  runOp (Op.dot4 f fun a b c => packRes 32 ((List.range 64).map fun j => dot4Lane f a b (lane 32 c.toNat j) j)) s

/-- `VMIN`: the lesser lane (spec R170). -/
def execVmin (f : VForm) (s : State) : Host.Outcome State Fault Refusal :=
  runOp (Op.lanes2 f fun a b => plain (if ival f.typ.toNat a ≤ ival f.typ.toNat b then a else b)) s

/-- `VMAX`: the greater lane (spec R170). -/
def execVmax (f : VForm) (s : State) : Host.Outcome State Fault Refusal :=
  runOp (Op.lanes2 f fun a b => plain (if ival f.typ.toNat a ≤ ival f.typ.toNat b then b else a)) s

/-- `VABS`: the absolute value; the lane itself for unsigned types (spec R170). -/
def execVabs (f : VForm) (s : State) : Host.Outcome State Fault Refusal :=
  runOp (Op.int1 f fun l => l.map fun a => outInt f.sat f.typ.toNat ((ival f.typ.toNat a).natAbs : Int)) s

/-- `VAND` (spec R170). -/
def execVand (f : VForm) (s : State) : Host.Outcome State Fault Refusal :=
  runOp (Op.lanes2 f fun a b => plain (a &&& b)) s

/-- `VOR` (spec R170). -/
def execVor (f : VForm) (s : State) : Host.Outcome State Fault Refusal :=
  runOp (Op.lanes2 f fun a b => plain (a ||| b)) s

/-- `VXOR` (spec R170). -/
def execVxor (f : VForm) (s : State) : Host.Outcome State Fault Refusal :=
  runOp (Op.lanes2 f fun a b => plain (a ^^^ b)) s

/-- `VANDN`: a and not b (spec R170). -/
def execVandn (f : VForm) (s : State) : Host.Outcome State Fault Refusal :=
  runOp (Op.lanes2 f fun a b => plain (a ^^^ (a &&& b))) s

/-- `VSHL` (spec R170). -/
def execVshl (f : VForm) (s : State) : Host.Outcome State Fault Refusal :=
  runOp (Op.lanes2 f fun a b => plain (shlLane (tyW f.typ.toNat) a b)) s

/-- `VSHR` (spec R170). -/
def execVshr (f : VForm) (s : State) : Host.Outcome State Fault Refusal :=
  runOp (Op.lanes2 f fun a b => plain (shrLane (tyW f.typ.toNat) a b)) s

/-- `VSAR` (spec R170). -/
def execVsar (f : VForm) (s : State) : Host.Outcome State Fault Refusal :=
  runOp (Op.lanes2 f fun a b => plain (sarLane (tyW f.typ.toNat) a b)) s

/-- `VCMP`: lanes of all ones where the condition holds (spec R172). -/
def execVcmp (f : VForm) (s : State) : Host.Outcome State Fault Refusal :=
  runOp (Op.lanes2 f fun a b => plain (maskLane (tyW f.typ.toNat) (icmp f.cc.toNat (ival f.typ.toNat a) (ival f.typ.toNat b)))) s

/-- `VSEL`: a where the mask c is set, else b (spec R172). -/
def execVsel (f : VForm) (s : State) : Host.Outcome State Fault Refusal :=
  runOp (Op.int3 f fun a b c => (vpack (tyW f.typ.toNat) (selFrom c 0 (elems (tyW f.typ.toNat) a) (elems (tyW f.typ.toNat) b)), 0)) s

/-- `VMSK`: the top bits of the lanes as a mask (spec R172). -/
def execVmsk (f : VForm) (s : State) : Host.Outcome State Fault Refusal :=
  runOp (do
    let w := tyW f.typ.toNat
    let a ← Op.ia f w
    Op.hint f.ru f.pb [(true, f.a)]
    Op.ires f (vpack 1 ((elems w a).map fun x => x / 2 ^ (w - 1)), 0)) s

/-- `VIOTA`: the count of mask bits below each lane (spec R172). -/
def execViota (f : VForm) (s : State) : Host.Outcome State Fault Refusal :=
  runOp (do
    let w := tyW f.typ.toNat
    let a ← Op.ia f w
    Op.hint f.ru f.pb [(true, f.a)]
    Op.ires f (vpack w (iotaFrom a (2048 / w) 0 0), 0)) s

/-- `VBCAST`: the low bits of a scalar in every lane (spec R173). -/
def execVbcast (f : VForm) (s : State) : Host.Outcome State Fault Refusal :=
  runOp (do
    let w := tyW f.typ.toNat
    let a ← Op.readS f.a 10
    Op.hint f.ru f.pb [(false, f.a)]
    Op.ires f (vpack w (List.replicate (2048 / w) a.toNat), 0)) s

/-- `VEXTR`: lane k extended to 64 bits (spec R173). -/
def execVextr (f : VForm) (s : State) : Host.Outcome State Fault Refusal :=
  runOp (do
    let w := tyW f.typ.toNat
    let a ← Op.ia f w
    Op.hint f.ru f.pb [(true, f.a)]
    Op.writeVS f.d 16 f.lat.toNat (ext64 (tySigned f.typ.toNat) w (lane w a.toNat f.imm.toNat))) s

/-- `VINS`: lane k replaced by the low bits of a scalar (spec R173). -/
def execVins (f : VForm) (s : State) : Host.Outcome State Fault Refusal :=
  runOp (do
    let w := tyW f.typ.toNat
    let d ← Op.readV f.d 16 0
    let a ← Op.readS f.a 10
    Op.hint f.ru f.pb [(true, f.d), (false, f.a)]
    Op.ires f (bset d (w * f.imm.toNat) w a.toNat, 0)) s

/-- `VPERM`: a at the indices b (spec R174). -/
def execVperm (f : VForm) (s : State) : Host.Outcome State Fault Refusal :=
  runOp (Op.int2 f fun a b => packRes (tyW f.typ.toNat) ((elems (tyW f.typ.toNat) b).map fun i => plain (lane (tyW f.typ.toNat) a.toNat (i % (2048 / (tyW f.typ.toNat)))))) s

/-- `VSHUF`: a and b at the indices c (spec R174). -/
def execVshuf (f : VForm) (s : State) : Host.Outcome State Fault Refusal :=
  runOp (Op.int3 f fun a b c => packRes (tyW f.typ.toNat) ((elems (tyW f.typ.toNat) c).map fun i => plain (pairLane (tyW f.typ.toNat) a b (i % (2 * (2048 / (tyW f.typ.toNat))))))) s

/-- `VROT`: lanes rotated by k (spec R174). -/
def execVrot (f : VForm) (s : State) : Host.Outcome State Fault Refusal :=
  runOp (Op.int1 f fun l => (l.drop f.imm.toNat ++ l.take f.imm.toNat).map plain) s

/-- `VSLIDE`: the lanes of a and b from lane k (spec R174). -/
def execVslide (f : VForm) (s : State) : Host.Outcome State Fault Refusal :=
  runOp (Op.int2 f fun a b => packRes (tyW f.typ.toNat) ((List.range (2048 / (tyW f.typ.toNat))).map fun i => plain (pairLane (tyW f.typ.toNat) a b (i + f.imm.toNat)))) s

/-- `VCOMPRESS`: the marked lanes together, then zeros (spec R175). -/
def execVcompress (f : VForm) (s : State) : Host.Outcome State Fault Refusal :=
  runOp (Op.int2 f fun a b => (vpack (tyW f.typ.toNat) (compressFrom b 0 (elems (tyW f.typ.toNat) a)), 0)) s

/-- `VEXPAND`: lanes dealt out to the marked lanes (spec R175). -/
def execVexpand (f : VForm) (s : State) : Host.Outcome State Fault Refusal :=
  runOp (Op.int2 f fun a b => (vpack (tyW f.typ.toNat) (expandFrom b (2048 / (tyW f.typ.toNat)) 0 (elems (tyW f.typ.toNat) a)), 0)) s

/-- `VSCAN`: a prefix operation (spec R176). -/
def execVscan (f : VForm) (s : State) : Host.Outcome State Fault Refusal :=
  runOp (Op.int1 f fun l =>
    scanFrom f.sat f.typ.toNat (bfld f.imm 0 3) (bbit f.imm 3) (wrapN (tyW f.typ.toNat) (scanId f.typ.toNat (bfld f.imm 0 3))) l) s

/-- `VPOPC` (spec R177). -/
def execVpopc (f : VForm) (s : State) : Host.Outcome State Fault Refusal :=
  runOp (Op.int1 f fun l => l.map fun x => plain (popCount (tyW f.typ.toNat) x)) s

/-- `VCLZ` (spec R177). -/
def execVclz (f : VForm) (s : State) : Host.Outcome State Fault Refusal :=
  runOp (Op.int1 f fun l => l.map fun x => plain (leadZeros (tyW f.typ.toNat) x)) s

/-- `VCLMUL`: a half of the carry-less product (spec R177). -/
def execVclmul (f : VForm) (s : State) : Host.Outcome State Fault Refusal :=
  runOp (Op.lanes2 f fun a b => plain (nfld (clmulNat 64 a b) (if bbit f.imm 0 then 64 else 0) 64)) s

/-- `VPACK`: a then b at half the width (spec R178). -/
def execVpack (f : VForm) (s : State) : Host.Outcome State Fault Refusal :=
  runOp (Op.pack f fun t2 l => l.map fun x => outInt f.sat f.typ.toNat (ival t2 x)) s

/-- `VUNPACK`: a part of a at a wider type (spec R178). -/
def execVunpack (f : VForm) (s : State) : Host.Outcome State Fault Refusal :=
  runOp (do
    let t2 := bfld f.imm 0 5
    let w := tyW f.typ.toNat
    let a ← Op.ia f (tyW t2)
    Op.hint f.ru f.pb [(true, f.a)]
    Op.ires f (vpack w ((rangeFrom (bfld f.imm 5 3 * (2048 / w)) (2048 / w)).map fun i =>
      wrapN w (ival t2 (lane (tyW t2) a.toNat i))), 0)) s

/-- `VSAT`: lanes clamped to a type no wider (spec R178). -/
def execVsat (f : VForm) (s : State) : Host.Outcome State Fault Refusal :=
  runOp (Op.int1 f fun l => l.map (vsatLane f)) s

end Sys2Proof.Machine
end

