-- ==== Sys2Proof/Machine/Memory.lean ====
section
/-! DEFINITION. Loads and stores of the M class: scalar, vector and scratchpad forms, `TOUCH`, acquire and release forms, gather
and scatter, `QMARK`, `FENCE`, `WAITF` (spec R201 to R212). -/

namespace Sys2Proof.Machine

/-! ### Operands -/

/-- The destination of an M result: the place, not pending (spec R54, R201). -/
def Op.mDst (vec : Bool) (d : Spec) : Op (Option RDst) := do
  let l ← if vec then Op.vDst d 16 else Op.sDst d 16
  Op.dst l

/-- A vector data source of a form with no element width: `lane` then reads a free value (spec R150, R201; log entry 28). -/
def Op.readData (d : Spec) : Op Vec := do
  let x ← if d = 62 then Op.draw else pure 0
  Op.readV d 16 x

/-- The data source of a store (spec R203). -/
def Op.stData (vec : Bool) (d : Spec) : Op Vec := do
  if vec then Op.readData d
  else do
    let v ← Op.readS d 16
    pure (v.setWidth 2048)

/-! ### Shapes of the forms -/

/-- A global load of `n` bytes at a + b (spec R203, R206); `w` is the width of a scalar, 0 for a vector, and `acq` says that it acquires at its
scope. -/
def Op.loadAt (vec : Bool) (d : Spec) (ea : W64) (n : Nat) (signed : Bool) (w scope : Nat) (acq : Bool) : Op Unit := do
  let dst ← Op.mDst vec d
  let (segs, _) ← Op.transl ea n .read 0
  let _ ← Op.enqueue .load (.load segs signed w) dst true scope acq

/-- A short global load (spec R203). -/
def Op.load (f : MForm) (vec : Bool) (n : Nat) (signed : Bool) (w : Nat) : Op Unit := do
  let ea ← Op.ea f.a f.b
  Op.hint f.ru f.pb [(false, f.a), (false, f.b)]
  Op.loadAt vec f.d ea n signed w 3 false

/-- A global store of `n` bytes at a + b (spec R203, R206). -/
def Op.storeAt (ea : W64) (n : Nat) (data : Vec) (scope : Nat) (rel : Bool) : Op Unit := do
  let (segs, rsegs) ← Op.transl ea n .write 1
  let _ ← Op.enqueue .store (.store segs rsegs data) none false scope rel

/-- A short global store (spec R203). -/
def Op.store (f : MForm) (vec : Bool) (n : Nat) : Op Unit := do
  let data ← Op.stData vec f.d
  let ea ← Op.ea f.a f.b
  Op.hint f.ru f.pb [(vec, f.d), (false, f.a), (false, f.b)]
  Op.storeAt ea n data 3 false

/-- A scratchpad load (spec R191, R202, R203). -/
def Op.loadSp (f : MForm) (vec : Bool) (n : Nat) (signed : Bool) (w : Nat) : Op Unit := do
  let ea ← Op.ea f.a f.b
  Op.hint f.ru f.pb [(false, f.a), (false, f.b)]
  let dst ← Op.mDst vec f.d
  Op.spRange ea n 5
  Op.spValid ea n
  let _ ← Op.enqueue .load (.sload ea.toNat n signed w) dst true 3 false

/-- A scratchpad store (spec R191, R202, R203). -/
def Op.storeSp (f : MForm) (vec : Bool) (n : Nat) : Op Unit := do
  let data ← Op.stData vec f.d
  let ea ← Op.ea f.a f.b
  Op.hint f.ru f.pb [(vec, f.d), (false, f.a), (false, f.b)]
  Op.spRange ea n 1
  let _ ← Op.enqueue .store (.sstore ea.toNat n data) none false 3 false

/-! ### Loads and stores -/

/-- `LD.i8`: 1 byte, sign-extended (spec R203). -/
def execLdI8 (f : MForm) (s : State) : Host.Outcome State Fault Refusal :=
  runOp (Op.load f false 1 true 8) s

/-- `LD.i16`: 2 bytes, sign-extended (spec R203). -/
def execLdI16 (f : MForm) (s : State) : Host.Outcome State Fault Refusal :=
  runOp (Op.load f false 2 true 16) s

/-- `LD.i32`: 4 bytes, sign-extended (spec R203). -/
def execLdI32 (f : MForm) (s : State) : Host.Outcome State Fault Refusal :=
  runOp (Op.load f false 4 true 32) s

/-- `LD.n8`: 1 byte, zero-extended (spec R203). -/
def execLdN8 (f : MForm) (s : State) : Host.Outcome State Fault Refusal :=
  runOp (Op.load f false 1 false 8) s

/-- `LD.n16`: 2 bytes, zero-extended (spec R203). -/
def execLdN16 (f : MForm) (s : State) : Host.Outcome State Fault Refusal :=
  runOp (Op.load f false 2 false 16) s

/-- `LD.n32`: 4 bytes, zero-extended (spec R203). -/
def execLdN32 (f : MForm) (s : State) : Host.Outcome State Fault Refusal :=
  runOp (Op.load f false 4 false 32) s

/-- `LD.i64`: 8 bytes, sign-extended (spec R203). -/
def execLdI64 (f : MForm) (s : State) : Host.Outcome State Fault Refusal :=
  runOp (Op.load f false 8 true 64) s

/-- `LDS.i8`: 1 byte from the scratchpad, sign-extended (spec R203). -/
def execLdsI8 (f : MForm) (s : State) : Host.Outcome State Fault Refusal :=
  runOp (Op.loadSp f false 1 true 8) s

/-- `LDS.i16`: 2 bytes from the scratchpad, sign-extended (spec R203). -/
def execLdsI16 (f : MForm) (s : State) : Host.Outcome State Fault Refusal :=
  runOp (Op.loadSp f false 2 true 16) s

/-- `LDS.i32`: 4 bytes from the scratchpad, sign-extended (spec R203). -/
def execLdsI32 (f : MForm) (s : State) : Host.Outcome State Fault Refusal :=
  runOp (Op.loadSp f false 4 true 32) s

/-- `LDS.n8`: 1 byte from the scratchpad, zero-extended (spec R203). -/
def execLdsN8 (f : MForm) (s : State) : Host.Outcome State Fault Refusal :=
  runOp (Op.loadSp f false 1 false 8) s

/-- `LDS.n16`: 2 bytes from the scratchpad, zero-extended (spec R203). -/
def execLdsN16 (f : MForm) (s : State) : Host.Outcome State Fault Refusal :=
  runOp (Op.loadSp f false 2 false 16) s

/-- `LDS.n32`: 4 bytes from the scratchpad, zero-extended (spec R203). -/
def execLdsN32 (f : MForm) (s : State) : Host.Outcome State Fault Refusal :=
  runOp (Op.loadSp f false 4 false 32) s

/-- `LDS.i64`: 8 bytes from the scratchpad, sign-extended (spec R203). -/
def execLdsI64 (f : MForm) (s : State) : Host.Outcome State Fault Refusal :=
  runOp (Op.loadSp f false 8 true 64) s

/-- `ST.i8`: the low 1 byte of d (spec R203). -/
def execStI8 (f : MForm) (s : State) : Host.Outcome State Fault Refusal :=
  runOp (Op.store f false 1) s

/-- `ST.i16`: the low 2 bytes of d (spec R203). -/
def execStI16 (f : MForm) (s : State) : Host.Outcome State Fault Refusal :=
  runOp (Op.store f false 2) s

/-- `ST.i32`: the low 4 bytes of d (spec R203). -/
def execStI32 (f : MForm) (s : State) : Host.Outcome State Fault Refusal :=
  runOp (Op.store f false 4) s

/-- `ST.i64`: the low 8 bytes of d (spec R203). -/
def execStI64 (f : MForm) (s : State) : Host.Outcome State Fault Refusal :=
  runOp (Op.store f false 8) s

/-- `STS.i8`: the low 1 byte of d to the scratchpad (spec R203). -/
def execStsI8 (f : MForm) (s : State) : Host.Outcome State Fault Refusal :=
  runOp (Op.storeSp f false 1) s

/-- `STS.i16`: the low 2 bytes of d to the scratchpad (spec R203). -/
def execStsI16 (f : MForm) (s : State) : Host.Outcome State Fault Refusal :=
  runOp (Op.storeSp f false 2) s

/-- `STS.i32`: the low 4 bytes of d to the scratchpad (spec R203). -/
def execStsI32 (f : MForm) (s : State) : Host.Outcome State Fault Refusal :=
  runOp (Op.storeSp f false 4) s

/-- `STS.i64`: the low 8 bytes of d to the scratchpad (spec R203). -/
def execStsI64 (f : MForm) (s : State) : Host.Outcome State Fault Refusal :=
  runOp (Op.storeSp f false 8) s

/-- `LDV`: 256 bytes (spec R203). -/
def execLdv (f : MForm) (s : State) : Host.Outcome State Fault Refusal :=
  runOp (Op.load f true 256 false 0) s

/-- `STV`: 256 bytes (spec R203). -/
def execStv (f : MForm) (s : State) : Host.Outcome State Fault Refusal :=
  runOp (Op.store f true 256) s

/-- `LDSV`: 256 bytes from the scratchpad (spec R203). -/
def execLdsv (f : MForm) (s : State) : Host.Outcome State Fault Refusal :=
  runOp (Op.loadSp f true 256 false 0) s

/-- `STSV`: 256 bytes to the scratchpad (spec R203). -/
def execStsv (f : MForm) (s : State) : Host.Outcome State Fault Refusal :=
  runOp (Op.storeSp f true 256) s

/-- `TOUCH`: a walk of kind read and a read lease; nothing for a remote VA (spec R190, R204). -/
def execTouch (f : MForm) (s : State) : Host.Outcome State Fault Refusal :=
  runOp (do
    let ea ← Op.ea f.a f.b
    Op.hint f.ru f.pb [(false, f.a), (false, f.b)]
    let here ← Op.see fun s => s.isLocal ea.toNat
    if here then do
      let _ ← Op.transl ea 1 .read 4
      let _ ← Op.enqueue .load (.load [] false 0) none false 3 false
    else pure ()) s

/-- `LD.acq`: a load, and an acquire: the load queue orders what follows (spec R195, R206, R207). -/
def execLdAcq (f : AForm) (s : State) : Host.Outcome State Fault Refusal :=
  runOp (do
    let ea ← Op.ea f.a f.b
    Op.hint f.ru f.pb [(false, f.a), (false, f.b)]
    Op.loadAt false f.d ea (tyW f.typ.toNat / 8) (tySigned f.typ.toNat) (tyW f.typ.toNat) f.scope.toNat true) s

/-- `ST.rel`: a store, and a release at its scope (spec R206, R207). -/
def execStRel (f : AForm) (s : State) : Host.Outcome State Fault Refusal :=
  runOp (do
    let v ← Op.readS f.d 16
    let ea ← Op.ea f.a f.b
    Op.hint f.ru f.pb [(false, f.d), (false, f.a), (false, f.b)]
    Op.storeAt ea (tyW f.typ.toNat / 8) (v.setWidth 2048) f.scope.toNat true) s

/-! ### Gather and scatter -/

/-- An element of a gather or scatter: its index, and its VA (spec R208). -/
def gsElems (f : AForm) (a : W64) (b : Vec) (sel : Nat → Bool) : List (Nat × W64) :=
  let w := tyW f.typ.toNat
  ((List.range (2048 / w)).filter sel).map fun i =>
    (i, a + BitVec.ofInt 64 (sval w (lane w b.toNat i) * (2 ^ bfld f.fn 0 2 : Nat)))

/-- The operands of a gather or scatter: the selected elements (spec R208). -/
def Op.gsOperands (f : AForm) : Op (List (Nat × W64)) := do
  let w := tyW f.typ.toNat
  let a ← Op.readS f.a 10
  let b ← Op.readV f.b 4 (laneVec w)
  let c ← if f.c = 60 then pure (BitVec.allOnes 2048) else Op.readV f.c 54 (laneVec w)
  pure (gsElems f a b (maskBit c))

/-- Translates the elements of a gather or scatter in ascending order: local runs and remote runs, each at its place in the
vector (spec R208). -/
def Op.gsTransl (w : Nat) (kind : WKind) (ak : Nat) : List (Nat × W64) → Op (List Seg × List RSeg)
  | [] => pure ([], [])
  | (i, va) :: t => do
    let (l, r) ← Op.transl va (w / 8) kind ak
    let (ls, rs) ← Op.gsTransl w kind ak t
    let at_ := i * (w / 8)
    pure (l.map (fun g => { g with off := at_ + g.off }) ++ ls, r.map (fun g => { g with off := at_ + g.off }) ++ rs)

/-- `GATHER` (spec R190, R208): a remote element traps before any walk. -/
def execGather (f : AForm) (s : State) : Host.Outcome State Fault Refusal :=
  runOp (do
    let w := tyW f.typ.toNat
    let es ← Op.gsOperands f
    Op.hint f.ru f.pb [(false, f.a), (true, f.b), (true, f.c)]
    let dst ← Op.mDst true f.d
    let far ← Op.see fun s => es.find? fun e => !(s.isLocal e.2.toNat)
    match far with
    | some e => Op.raise (memTrap 0x04 e.2.toNat 0 0 0)
    | none => do
      let (segs, _) ← Op.gsTransl w .read 0 es
      let _ ← Op.enqueue .load (.load segs false 0) dst true 3 false) s

/-- `SCATTER`: the elements in ascending order, remote ones as fabric writes (spec R208). -/
def execScatter (f : AForm) (s : State) : Host.Outcome State Fault Refusal :=
  runOp (do
    let w := tyW f.typ.toNat
    let data ← Op.readV f.d 16 (laneVec w)
    let es ← Op.gsOperands f
    Op.hint f.ru f.pb [(true, f.d), (false, f.a), (true, f.b), (true, f.c)]
    let (segs, rsegs) ← Op.gsTransl w .write 1 es
    let _ ← Op.enqueue .store (.store segs rsegs data) none false 3 false) s

/-! ### Queue markers and fences -/

/-- `QMARK`: a place in both queues (spec R195, R205). -/
def execQmark (s : State) : Host.Outcome State Fault Refusal := runOp Op.mark s

/-- The accesses of a strand not performed at a scope (spec R207, R210). -/
def State.unperformed (s : State) (sid : Nat) (t : Strand) (scope : Nat) : List Nat :=
  ((t.q.accs.filter fun a => a.act.covered).map Access.id) ++ (if scope = 4 then s.remoteIds sid else s.heldIds sid)

/-- A token's accesses have all performed at its scope (spec R210). -/
def State.tokenDone (s : State) (sid : Nat) (t : Strand) (k : Nat) : Bool :=
  let tok := SMap.get {} t.q.toks k
  let open_ := s.unperformed sid t tok.scope
  tok.ids.all fun i => !(open_.contains i)

/-- The status word of a token (spec R212). -/
def Token.status (t : Token) : W64 :=
  if t.scope < 4 || t.count = 0 then 0
  else BitVec.ofNat 64 (1 + t.mcode % 256 * 2 ^ 16 + t.cause % 256 * 2 ^ 24 + t.home % 2 ^ 11 * 2 ^ 37 + min t.count 0xFFFF * 2 ^ 48)

/-- A token of a strand replaced. -/
def Strand.setTok (t : Strand) (k : Nat) (v : Token) : Strand := { t with q := { t.q with toks := SMap.set {} t.q.toks k v } }

/-- `FENCE` (spec R209): the token's set grows by the accesses not performed, its scope to the wider. -/
def execFence (tok scope : BitVec 6) (s : State) : Host.Outcome State Fault Refusal :=
  runOp (do
    let ids ← Op.see fun s => s.unperformed s.cur s.me scope.toNat
    Op.onMe fun t =>
      let k := SMap.get {} t.q.toks tok.toNat
      let new := ids.filter fun i => !(k.ids.contains i)
      t.setTok tok.toNat { k with used := true, scope := max k.scope scope.toNat, ids := k.ids ++ new }
    Op.mark) s

/-- `WAITF` (spec R210, R212): a free token answers 0; a token in use is waited for, reported and freed. -/
def execWaitf (d : Spec) (tok : BitVec 6) (u : Bool) (s : State) : Host.Outcome State Fault Refusal :=
  runOp (do
    let done ← Op.see fun s => s.tokenDone s.cur s.view tok.toNat
    if done then do
      let k ← Op.look fun t => SMap.get {} t.q.toks tok.toNat
      if u then Op.writeM d 16 k.status else pure ()
      Op.onMe fun t => t.setTok tok.toNat {}
      Op.mark
    else Op.stop (.waitf tok.toNat)) s

/-- `WAITF_COMPLETE` (spec R210): the token waited for is satisfied, and the strand is ready to issue the `WAITF`. -/
def execWaitfComplete (sid : Nat) (s : State) : Host.Outcome State Fault Refusal :=
  match s.strand? sid with
  | none => .next s
  | some t =>
    match t.q.waitf with
    | none => .next s
    | some k => if s.tokenDone sid t k then .next (s.setStrand sid { t with q := { t.q with waitf := none } }) else .next s

end Sys2Proof.Machine
end

