-- ==== Sys2Proof/Machine/Atomic.lean ====
section
/-! DEFINITION. Atomics and bank-side commands: the new value each makes, and the forms that issue them (spec R213 to R216,
R267, R269). -/

namespace Sys2Proof.Machine

/-! ### New values -/

/-- The new value of an atomic: operation 0 add, 1 min, 2 max, 3 and, 4 or, 5 xor, 6 exchange, 7 compare and swap of `b` for
`c`; the conditions of a floating add (spec R213, R263, R269). -/
def atomNew (op typ m b c : Nat) : Nat × FlagSet :=
  let w := tyW typ
  if op = 0 then
    if 16 ≤ typ then roundOp {} typ (addExact false (unpackVal 0 typ m) (unpackVal 0 typ b)) else ((m + b) % 2 ^ w, 0)
  else if op = 1 then (if ival typ b < ival typ m then b else m, 0)
  else if op = 2 then (if ival typ m < ival typ b then b else m, 0)
  else if op = 3 then (m &&& b, 0)
  else if op = 4 then (m ||| b, 0)
  else if op = 5 then (m ^^^ b, 0)
  else if op = 6 then (b, 0)
  else (if m = b then c else m, 0)

/-- The old value as a destination receives it (spec R214, R269). -/
def atomOld (typ m : Nat) : W64 := ext64 (tySigned typ) (tyW typ) m

/-- One element of `MRED` (spec R215). -/
def mredElem (op typ : Nat) (sat : Bool) (x y : Nat) : Nat :=
  if 16 ≤ typ then
    if op = 0 then (roundOp {} typ (addExact false (unpackVal 0 typ x) (unpackVal 0 typ y))).1
    else (minmaxVal typ (op = 2) (unpackVal 0 typ x) (unpackVal 0 typ y)).1
  else if op = 0 then (outInt sat typ (ival typ x + ival typ y)).1
  else (atomNew op typ x y 0).1

/-- One element of `MSACC`: L + s · v with one rounding (spec R215). -/
def msaccElem (typ : Nat) (s : FVal) (l v : Nat) : Nat :=
  (roundOp {} typ (fmaExact false s (unpackVal 0 typ v) (unpackVal 0 typ l))).1

/-- Elements of three packed lines combined. -/
def lineMap3 (w : Nat) (g : Nat → Nat → Nat → Nat) (a b c : Line) : Line :=
  BitVec.ofNat 512 (packLanes w ((List.range (512 / w)).map fun i => g (lane w a.toNat i) (lane w b.toNat i) (lane w c.toNat i)))

/-- The new line of a bank-side command: operations 0 to 5 `MRED`, 0x20 `MCAS`, 0x21 `MSACC`, 0x22 `FBAR`, 0x23 `FBAR.add`, as
R310 codes them (spec R215, R267). -/
def bankNew (op typ : Nat) (sat : Bool) (v x y l : Line) : Line :=
  let w := tyW typ
  if op < 6 then lineMap3 w (fun a b _ => mredElem op typ sat a b) l v 0
  else if op = 0x20 then lineMap3 w (fun a b c => if a = b then c else a) l x y
  else if op = 0x21 then
    let s := if typ = 16 then unpackVal 0 16 (bfld x 0 64) else unpackVal 0 17 (bfld x 0 32)
    lineMap3 w (fun a b _ => msaccElem typ s a b) l v 0
  else if op = 0x22 then (v.setWidth 64).setWidth 512
  else bset l 0 64 (bfld l 0 64 + bfld v 0 64)

/-! ### Issue -/

/-- The checks of an address by its size: an EA that is not a multiple traps `ILLEGAL_FIELD` (spec R214, R215, R267). -/
def Op.aligned (ea : W64) (n : Nat) (lo : Nat) : Op Unit :=
  Op.raiseIf (ea.toNat % n ≠ 0) (illegalField lo 6 ea)

/-- An atomic of operation `op` with operands b and c (spec R213, R214): d is zero when the VA is remote. -/
def Op.atomic (f : AForm) (op : Nat) (cas : Bool) : Op Unit := do
  let w := tyW f.typ.toNat
  let ea ← Op.readS f.a 10
  let b ← Op.readS f.b 4
  let c ← if cas then Op.readS f.c 54 else pure 0
  Op.hint f.ru f.pb ([(false, f.a), (false, f.b)] ++ if cas then [(false, f.c)] else [])
  let dst ← Op.mDst false f.d
  Op.aligned ea (w / 8) 10
  let here ← Op.see fun s => s.isLocal ea.toNat
  let x := bfld b 0 w
  let y := bfld c 0 w
  if here then do
    let (segs, _) ← Op.transl ea (w / 8) .write 2
    let _ ← Op.enqueue .both (.atom op f.typ.toNat (segs.headD ⟨0, 0, 0, 0⟩) x y) dst true f.scope.toNat (bbit f.fn 3)
  else do
    Op.raiseIf (bbit f.fn 2) (memTrap 0x04 ea.toNat 2 0 0)
    Op.writeM f.d 16 0
    let _ ← Op.enqueue .both (.ratom op f.typ.toNat ea x y) none false f.scope.toNat (bbit f.fn 3)

/-- A bank-side command at a line (spec R215, R216, R267). -/
def Op.bank (ea : W64) (lo op typ : Nat) (sat : Bool) (v x y : Line) (dst : Option RDst) : Op Unit := do
  Op.aligned ea 64 lo
  let here ← Op.see fun s => s.isLocal ea.toNat
  if here then do
    let (segs, _) ← Op.transl ea 64 .write 2
    let _ ← Op.enqueue .both (.bank op typ sat (segs.headD ⟨0, 0, 0, 0⟩) v x y) dst dst.isSome 3 false
  else do
    let _ ← Op.enqueue .both (.rbank op typ sat ea v x y) none false 3 false

/-- `AADD` (spec R213). -/
def execAadd (f : AForm) (s : State) : Host.Outcome State Fault Refusal := runOp (Op.atomic f 0 false) s

/-- `AMIN` (spec R213). -/
def execAmin (f : AForm) (s : State) : Host.Outcome State Fault Refusal := runOp (Op.atomic f 1 false) s

/-- `AMAX` (spec R213). -/
def execAmax (f : AForm) (s : State) : Host.Outcome State Fault Refusal := runOp (Op.atomic f 2 false) s

/-- `ALOG`: and, or, xor by fn (spec R213). -/
def execAlog (f : AForm) (s : State) : Host.Outcome State Fault Refusal := runOp (Op.atomic f (3 + bfld f.fn 0 2) false) s

/-- `AXCHG` (spec R213). -/
def execAxchg (f : AForm) (s : State) : Host.Outcome State Fault Refusal := runOp (Op.atomic f 6 false) s

/-- `ACAS` (spec R213). -/
def execAcas (f : AForm) (s : State) : Host.Outcome State Fault Refusal := runOp (Op.atomic f 7 true) s

/-- `MRED` (spec R215). -/
def execMred (f : AForm) (s : State) : Host.Outcome State Fault Refusal :=
  runOp (do
    let v ← Op.readV f.d 16 (laneVec (tyW f.typ.toNat))
    let ea ← Op.readS f.a 10
    Op.hint f.ru f.pb [(true, f.d), (false, f.a)]
    Op.bank ea 10 (bfld f.fn 0 3) f.typ.toNat (bbit f.fn 3) (v.setWidth 512) 0 0 none) s

/-- `MCAS`: d receives the old line, zero when the VA is remote (spec R215, R216). -/
def execMcas (f : AForm) (s : State) : Host.Outcome State Fault Refusal :=
  runOp (do
    let w := tyW f.typ.toNat
    let ea ← Op.readS f.a 10
    let b ← Op.readV f.b 4 (laneVec w)
    let c ← Op.readV f.c 54 (laneVec w)
    Op.hint f.ru f.pb [(false, f.a), (true, f.b), (true, f.c)]
    let dst ← Op.mDst true f.d
    let here ← Op.see fun s => s.isLocal ea.toNat
    Op.bank ea 10 0x20 f.typ.toNat false 0 (b.setWidth 512) (c.setWidth 512) (if here then dst else none)
    match here, dst with
    | false, some d => do
      Op.writeLoc d.loc 0
      Op.onMe fun t => { t with files := { t.files with lm := 0, lmWait := none } }
    | _, _ => pure ()) s

/-- `MSACC`: the scale is the scalar b (spec R215). -/
def execMsacc (f : AForm) (s : State) : Host.Outcome State Fault Refusal :=
  runOp (do
    let v ← Op.readV f.d 16 (laneVec (tyW f.typ.toNat))
    let ea ← Op.readS f.a 10
    let b ← Op.readS f.b 4
    Op.hint f.ru f.pb [(true, f.d), (false, f.a), (false, f.b)]
    Op.bank ea 10 0x21 f.typ.toNat false (v.setWidth 512) (b.setWidth 512) 0 none) s

end Sys2Proof.Machine
end

