-- ==== Sys2Proof/Machine/Links.lean ====
section
/-! DEFINITION. Links: Valbeoft headers, Spindle flits, ports and their masks, routing, holds, and the bookkeeping of transactions
this device sent (spec R262, R276, R277, R307 to R325, R361). -/

namespace Sys2Proof

/-! ### Transactions -/

/-- The operation of a transaction (spec R310). -/
def Txn.op (t : Txn) : Nat := bfld t.hdr 0 8
/-- The origin device. -/
def Txn.src (t : Txn) : Nat := bfld t.hdr 10 11
/-- The destination device. -/
def Txn.dst (t : Txn) : Nat := bfld t.hdr 21 11
/-- The count field. -/
def Txn.count (t : Txn) : Nat := bfld t.hdr 32 3
/-- The origin's fabric context. -/
def Txn.ctx (t : Txn) : Nat := bfld t.hdr 42 6
/-- The type code. -/
def Txn.typ (t : Txn) : Nat := bfld t.hdr 48 8
/-- The fn field. -/
def Txn.fn (t : Txn) : Nat := bfld t.hdr 56 8
/-- The tag. -/
def Txn.tag (t : Txn) : Nat := bfld t.hdr 64 32
/-- The PASID. -/
def Txn.pasid (t : Txn) : Nat := bfld t.hdr 108 20
/-- The target VA. -/
def Txn.va (t : Txn) : Nat := bfld t.hdr 128 64
/-- The aux word. -/
def Txn.aux (t : Txn) : Nat := bfld t.hdr 192 64
/-- The first operand. -/
def Txn.opnd0 (t : Txn) : Nat := bfld t.hdr 256 64
/-- The second operand. -/
def Txn.opnd1 (t : Txn) : Nat := bfld t.hdr 320 64

/-- The fields of a header (spec R310). -/
structure Hdr where
  op : Nat
  dst : Nat
  src : Nat := 0
  rel : Bool := false
  ctx : Nat := 0x3F
  typ : Nat := 0
  fn : Nat := 0
  tag : Nat := 0
  pasid : Nat := 0
  va : Nat := 0
  aux : Nat := 0
  opnd0 : Nat := 0
  opnd1 : Nat := 0
  deriving DecidableEq, Repr

/-- A transaction from its header fields and units (spec R310). -/
def Hdr.txn (h : Hdr) (units : List CLine) : Txn :=
  { hdr := BitVec.ofNat 512
      (h.op % 2 ^ 8 + h.src % 2 ^ 11 * 2 ^ 10 + h.dst % 2 ^ 11 * 2 ^ 21 + units.length % 8 * 2 ^ 32 + b2n h.rel * 2 ^ 41
        + h.ctx % 64 * 2 ^ 42 + h.typ % 256 * 2 ^ 48 + h.fn % 256 * 2 ^ 56 + h.tag % 2 ^ 32 * 2 ^ 64
        + h.pasid % 2 ^ 20 * 2 ^ 108 + h.va % 2 ^ 64 * 2 ^ 128 + h.aux % 2 ^ 64 * 2 ^ 192 + h.opnd0 % 2 ^ 64 * 2 ^ 256
        + h.opnd1 % 2 ^ 64 * 2 ^ 320)
    units := units }

/-- The operations of R310. -/
def txnOps : List Nat := [1, 2, 3, 4, 5, 6, 7, 8, 9, 10, 11, 12, 0x10, 0x11, 0x12]

/-- The header has a reserved op or a reserved field that is not zero (spec R310). -/
def Txn.reserved (t : Txn) : Bool :=
  !(txnOps.contains t.op) || bfld t.hdr 384 128 ≠ 0 || bfld t.hdr 96 12 ≠ 0 || bfld t.hdr 35 6 ≠ 0 || bfld t.hdr 8 2 ≠ 0
    || decide (4 < t.count)

/-- The kinds of transaction that need the Valbeoft extensions on every hop (spec R309). -/
def Txn.needsExt (t : Txn) : Bool :=
  (decide (9 ≤ t.op) && decide (t.op ≤ 12)) || (decide (t.op ≤ 2) && t.aux ≠ 0)

end Sys2Proof

namespace Sys2Proof.Machine

/-! ### Checks of lines and flits -/

/-- One bit of the line check's CRC (spec R192). -/
def crc16Bits : Nat → Nat → Nat
  | 0, c => c
  | n + 1, c => crc16Bits n (if c.testBit 15 then (c * 2 % 65536) ^^^ 0x1021 else c * 2 % 65536)

/-- The line check over bytes (spec R192). -/
def crc16 : List Byte → Nat → Nat
  | [], c => c
  | b :: t, c => crc16 t (crc16Bits 8 (c ^^^ (b.toNat * 256)))

/-- The check of a line (spec R192). -/
def lineCheck (l : Line) : Nat := crc16 (toBytes 64 l.toNat) 0xFFFF

/-- One bit of the flit's CRC (spec R312). -/
def crc32Bits : Nat → Nat → Nat
  | 0, c => c
  | n + 1, c => crc32Bits n (if c.testBit 0 then (c / 2) ^^^ 0xEDB88320 else c / 2)

/-- The flit CRC over bytes (spec R312). -/
def crc32 : List Byte → Nat → Nat
  | [], c => c ^^^ 0xFFFFFFFF
  | b :: t, c => crc32 t (crc32Bits 8 (c ^^^ b.toNat))

/-- The fields of a flit (spec R311). -/
structure FlitF where
  typ : Nat
  seq : Nat := 0
  ack : Nat := 0
  sop : Bool := false
  eop : Bool := false
  vc : Nat := 0
  credit : Nat := 0
  dst : Nat := 0
  src : Nat := 0
  payload : Line := 0
  lchk : Nat := 0
  deriving DecidableEq, Repr

/-- A flit from its fields (spec R311, R312). -/
def FlitF.bits (f : FlitF) : BitVec 640 :=
  let body := f.payload.toNat
    + (f.src % 2 ^ 11 * 2 ^ 10 + f.dst % 2 ^ 11 * 2 ^ 21 + f.credit % 2 ^ 8 * 2 ^ 32 + f.vc % 4 * 2 ^ 40 + b2n f.eop * 2 ^ 42 + b2n f.sop * 2 ^ 43 + f.typ % 16 * 2 ^ 44
        + f.lchk % 2 ^ 16 * 2 ^ 48 + f.ack % 2 ^ 16 * 2 ^ 64 + f.seq % 2 ^ 16 * 2 ^ 80) * 2 ^ 512
  BitVec.ofNat 640 (body + crc32 (toBytes 76 body) 0xFFFFFFFF * 2 ^ 608)

/-- The CRC of a flit holds (spec R312). -/
def flitOk (f : BitVec 640) : Bool := crc32 (toBytes 76 (bfld f 0 608)) 0xFFFFFFFF = bfld f 608 32

/-- The type of a flit. -/
def flitType (f : BitVec 640) : Nat := bfld f 556 4
/-- The sequence number of a flit. -/
def flitSeq (f : BitVec 640) : BitVec 16 := BitVec.ofNat 16 (bfld f 592 16)
/-- The ack of a flit. -/
def flitAck (f : BitVec 640) : BitVec 16 := BitVec.ofNat 16 (bfld f 576 16)
/-- The payload of a flit. -/
def flitPayload (f : BitVec 640) : Line := BitVec.ofNat 512 (bfld f 0 512)
/-- The flit ends a packet. -/
def flitEop (f : BitVec 640) : Bool := bbit f 554
/-- The flit starts a packet. -/
def flitSop (f : BitVec 640) : Bool := bbit f 555

/-! ### Ports -/

/-- A UALink port. -/
def State.ual (s : State) (p : Nat) : Ual := SMap.get {} s.links.ual p
/-- A UALink port replaced. -/
def State.setUal (s : State) (p : Nat) (v : Ual) : State := { s with links := { s.links with ual := SMap.set {} s.links.ual p v } }
/-- A Spindle port. -/
def State.spn (s : State) (p : Nat) : Spn := SMap.get {} s.links.spn p
/-- A Spindle port replaced. -/
def State.setSpn (s : State) (p : Nat) (v : Spn) : State := { s with links := { s.links with spn := SMap.set {} s.links.spn p v } }
/-- A ring. -/
def State.ring (s : State) (n : Nat) : Ring := SMap.get {} s.links.rings n
/-- A ring replaced. -/
def State.setRing (s : State) (n : Nat) (v : Ring) : State :=
  { s with links := { s.links with rings := SMap.set {} s.links.rings n v } }
/-- A laser. -/
def State.laser (s : State) (l : Nat) : Laser := SMap.get {} s.links.lasers l
/-- A laser replaced. -/
def State.setLaser (s : State) (l : Nat) (v : Laser) : State :=
  { s with links := { s.links with lasers := SMap.set {} s.links.lasers l v } }
/-- A routing table entry (spec R323). -/
def State.routeEntry (s : State) (d : Nat) : W32 := SMap.get 0x1F1F s.links.routes d

/-- What leaves on a link. -/
def State.wireOut (s : State) (w : Wire) : State := { s with links := { s.links with wire := s.links.wire ++ [w] } }

/-- The context of a link's timeline (spec R307). -/
def linkCtx (x : Nat) : Nat := 4 * 4096 + x

/-- A receive wavelength is healthy (spec R316). -/
def Ring.healthy (r : Ring) : Bool := r.locked && decide (r.pd0.toNat ≤ 8 * r.pd.toNat)

/-- The healthy mask of a Spindle port (spec R316). -/
def State.healthy (s : State) (p : Nat) : BitVec 16 :=
  BitVec.ofNat 16 ((List.range 16).foldl (fun a w =>
    if (s.ring (16 * p + w)).healthy && !(bbit (s.spn p).dis w) then a + 2 ^ w else a) 0)

/-- The width for a count of healthy wavelengths (spec R316). -/
def widthOf (n : Nat) : Nat := if 16 ≤ n then 16 else if 12 ≤ n then 12 else if 8 ≤ n then 8 else if 4 ≤ n then 4 else 0

/-- The lowest `n` set bits of a mask. -/
def lowBits : Nat → Nat → Nat → Nat → Nat
  | 0, _, _, _ => 0
  | k + 1, i, n, m => if n ≠ 0 && m.testBit i then 2 ^ i + lowBits k (i + 1) (n - 1) m else lowBits k (i + 1) n m

/-- The active set of a mask (spec R316). -/
def activeOf (m : BitVec 16) : BitVec 16 := BitVec.ofNat 16 (lowBits 16 0 (widthOf (popCount 16 m.toNat)) m.toNat)

/-- A flit striped over the wavelengths of an active set: byte `b` on wavelength `a(b mod W)` in slot `⌊b/W⌋`; a wavelength with no byte
sends zero (spec R312). -/
def stripe (act : BitVec 16) (f : BitVec 640) : List (BitVec 128) :=
  let ws := (List.range 16).filter fun w => bbit act w
  (List.range (ceilDiv 80 ws.length)).map fun k =>
    BitVec.ofNat 128 ((ws.mapIdx fun i w => bfld f (8 * (k * ws.length + i)) 8 * 2 ^ (8 * w)).foldl (· + ·) 0)

/-- A flit leaves on a port, striped over the transmitter's active set (spec R312). -/
def State.flitOut (s : State) (p : Nat) (f : BitVec 640) : State := s.wireOut (.flit p f (stripe (activeOf (s.spn p).tx) f))

/-- The virtual channel and the credit count that the next flit carries: the spec states neither, so they are free values (log entry 96). -/
def FlitF.lane (f : FlitF) (free : Nat) : FlitF :=
  { f with vc := bfld (Config.freeVec free) 0 2, credit := bfld (Config.freeVec free) 2 8 }

/-- The partition a link is assigned to (spec R338); none is past every partition. -/
def State.linkOwner (s : State) (x : Nat) : Nat :=
  match s.parts.find? fun e => if x < 16 then bbit e.2.ual x else bbit e.2.spn (x - 16) with
  | some e => e.1
  | none => 2 ^ 16

/-- The replay buffer has room for `n` more flits (spec R313). -/
def Spn.room (v : Spn) (n : Nat) : Bool := decide (v.buf.length - v.acked + n ≤ 1024)

/-- The event record of a link (spec R325): kind, laser, masks, first replayed number, count, number of the link-state event. The
time is a free value (log entry 20). -/
def State.linkEvent (s : State) (x kind laser : Nat) (old new : BitVec 16) (first : BitVec 16) (n lseq : Nat) : State :=
  let time := ((Config.freeVec s.free).setWidth 64).toNat
  let r := 1 + kind * 2 ^ 8 + x * 2 ^ 16 + laser * 2 ^ 24 + old.toNat * 2 ^ 64 + new.toNat * 2 ^ 80 + first.toNat * 2 ^ 96
    + min n 0xFFFF * 2 ^ 112 + lseq % 2 ^ 64 * 2 ^ 128 + time * 2 ^ 192
  ({ s with free := s.free + 1 } : State).event (s.linkOwner x) 0 0x22 r

/-- The issue count of a link's timeline. -/
def State.linkIss (s : State) (x : Nat) : Nat := (s.ctx (linkCtx x)).issued.toNat

/-! ### What becomes of a transaction -/

/-- A remote access not performed goes to the log of its partition (spec R262). -/
def State.fbLog (s : State) (part ctx home cause va : Nat) : State :=
  let p := s.part part
  let count := min (bfld p.fbLog 48 16 + 1) 0xFFFF
  let seen : Bool := bbit p.fbLog 47
  let l := if seen then p.fbLog
    else BitVec.ofNat 64 (2 ^ 47 + home % 2 ^ 11 * 2 ^ 36 + cause % 256 * 2 ^ 28 + ctx % 64 * 2 ^ 22)
  s.setPart part { p with fbLog := bset l 48 16 count, fbLogva := if bbit p.fbLog 47 then p.fbLogva else BitVec.ofNat 64 va }

/-- The error-word entry of a DONE status (spec R260, R310). -/
def errOf (status : Nat) : Nat × Nat :=
  if status < 5 then (3, status) else if status < 0x20 then (6, status - 0x10 + 1) else (8, status - 0x20 + 1)

/-- A token of a covered access that was not performed (spec R212). -/
def Token.notPerformed (t : Token) (acc home cause mcode : Nat) : Token :=
  if t.ids.contains acc then
    if t.count = 0 then { t with count := 1, home := home, cause := cause, mcode := mcode } else { t with count := t.count + 1 }
  else t

/-- A covered access was not performed: the tokens that cover it record it (spec R212). -/
def Strand.notPerformed (t : Strand) (acc home cause mcode : Nat) : Strand :=
  { t with q := { t.q with toks := t.q.toks.map fun e => (e.1, e.2.notPerformed acc home cause mcode) } }

/-- A fabric command by context and number. -/
def State.fabCmd (s : State) (c q : Nat) : Option FabCmd := s.fab.cmds.find? fun x => x.ctx = c && x.seq = q

/-- A fabric command replaced. -/
def State.setFabCmd (s : State) (v : FabCmd) : State :=
  { s with fab := { s.fab with cmds := s.fab.cmds.map fun x => if x.ctx = v.ctx && x.seq = v.seq then v else x } }

/-- A failure of a fabric command; the first one stays (spec R220). -/
def FabCmd.failed (c : FabCmd) (k : Nat × Nat) : FabCmd := { c with fail := some (c.fail.getD k) }

/-- What an answer to one of its packets does to a command (spec R259, R260, R269). -/
def FabCmd.answer (c : FabCmd) (status : Nat) (old : Option W64) : FabCmd :=
  let c1 := match old with
    | some v => { c with old := some v }
    | none => c
  if status = 0 then c1 else c1.failed (errOf status)

/-- A remote write of a copy command or of a drain was not performed: the command fails with kind 3 (spec R223, R248). -/
def State.engFail (s : State) (c q : Nat) : State :=
  let f (o : Option (Nat × Nat)) : Option (Nat × Nat) := some (o.getD (3, 0))
  { s with
    copies := s.copies.map fun x => if x.ctx = c && x.seq = q then { x with fail := f x.fail } else x
    cube := { s.cube with cmds := s.cube.cmds.map fun x =>
      if 4096 + x.ctx = c && x.seq = q then { x with fail := f x.fail } else x } }

/-- The cause that the error log records for a DONE status, 0 for none: a contribution that no switch took found no route
(spec R212, R262, R324; log entry 97). -/
def logCause (status : Nat) : Nat := if status ≤ 4 then status else if status = 0x21 || status = 0x22 then 1 else 0

/-- A tag with packets and a failure replaced, or gone with its last packet. -/
def State.setPkts (s : State) (tag : Nat) (ps : List OutPkt) (fail : Option (Nat × Nat × Nat)) : State :=
  { s with fab := { s.fab with outs := s.fab.outs.filterMap fun o =>
      if o.tag = tag then (if ps = [] then none else some { o with pkts := ps, failed := fail }) else some o } }

/-- A packet is answered, or found undeliverable: the packet `i` of a tag, its DONE status and code, the old value. An access is
reported to the tokens that cover it once its last packet is (spec R212, R259, R262, R310, R324; log entry 94). -/
def State.pktDone (s : State) (tag i status mcode : Nat) (old : Option W64) : State :=
  match s.fab.outs.find? fun o => o.tag = tag with
  | none => s
  | some o =>
    match o.pkts[i]? with
    | none => s
    | some p =>
      let s1 := if logCause status = 0 then s else s.fbLog o.part p.txn.ctx p.txn.dst (logCause status) p.txn.va
      let rest := o.pkts.eraseIdx i
      let fail := if status = 0 then o.failed else some (o.failed.getD (p.txn.dst, status, mcode))
      let s2 := s1.setPkts tag rest fail
      match o.org with
      | .access sid id =>
        match rest, fail with
        | [], some (home, cause, code) => s2.onStrand sid fun t => t.notPerformed id home cause code
        | _, _ => s2
      | .cmd c q =>
        match s2.fabCmd c q with
        | none => if status = 0 then s2 else s2.engFail c q
        | some x => s2.setFabCmd (x.answer status old)

/-! ### Placing -/

/-- Where a send goes (spec R309, R323). -/
inductive Route where
  | link (x : Nat)
  | wait
  | bad (status : Nat)
  deriving DecidableEq, Repr

/-- The partner of a link: its kind (1 an extended switch, 2 a Rilif on a Spindle port, another partner on UALink) and id. -/
def State.partner (s : State) (x : Nat) : Nat × Nat :=
  if x < 16 then ((s.ual x).pkind.toNat, (s.ual x).partner.toNat)
  else ((s.spn (x - 16)).pkind.toNat, (s.spn (x - 16)).partner.toNat)

/-- A port is UP (spec R309, R320). -/
def State.linkUp (s : State) (x : Nat) : Bool := if x < 16 then (s.ual x).st = 2 else decide (x < 24) && (s.spn (x - 16)).st = 2

/-- A port is RELOCK, DARKING or DARK (spec R323). -/
def State.linkWaits (s : State) (x : Nat) : Bool :=
  decide (16 ≤ x) && decide (x < 24) && [1, 3, 4].contains (s.spn (x - 16)).st

/-- A link chosen for a send, or why its partner cannot take it (spec R309). -/
def State.capable (s : State) (x : Nat) (t : Txn) : Route :=
  let (k, id) := s.partner x
  if 16 ≤ x && k = 2 && id ≠ t.dst && t.op ≠ 7 then .bad 1
  else if t.op = 7 && k ≠ 1 then .bad 0x21
  else if x < 16 && k ≠ 1 && t.needsExt then .bad 1
  else if 16 ≤ x && k = 0 then .bad 1
  else .link x

/-- Routes a send (spec R323). -/
def State.routeOf (s : State) (t : Txn) : Route :=
  if t.dst = s.mem.devid.toNat then .link 24
  else
    let e := s.routeEntry t.dst
    let pri := bfld e 0 5
    let alt := bfld e 8 5
    if s.linkUp pri then s.capable pri t
    else if s.linkUp alt then s.capable alt t
    else if s.linkWaits pri || s.linkWaits alt then .wait
    else .bad (if t.op = 7 then 0x22 else 1)

/-- The next flits of a packet: numbered, kept for replay and sent (spec R311, R313). -/
def State.spnFlits (s : State) (p : Nat) (send : Option Nat) : List FlitF → State
  | [] => s
  | f :: r =>
    let v := s.spn p
    let seq := v.seq + 1
    let bits := ({ f.lane s.free with seq := seq.toNat, ack := v.ack.toNat } : FlitF).bits
    State.spnFlits ((({ s with free := s.free + 1 } : State).setSpn p { v with seq := seq, buf := v.buf ++ [⟨seq, bits, send⟩] }).flitOut
      p bits) p send r

/-- The DATA flits of a transaction: the header, then its units (spec R310, R311). -/
def flitsOf (t : Txn) : List FlitF :=
  let one (l : Line) (ok sop eop : Bool) : FlitF :=
    { typ := 1, sop := sop, eop := eop, dst := t.dst, src := t.src, payload := l,
      lchk := if ok then lineCheck l else lineCheck l ^^^ 1 }
  one t.hdr true true t.units.isEmpty :: units one t.units
where
  /-- The flits of the units; the last ends the packet. -/
  units (one : Line → Bool → Bool → Bool → FlitF) : List CLine → List FlitF
    | [] => []
    | [u] => [one u.data u.ok false true]
    | u :: r => one u.data u.ok false false :: units one r

/-- A transaction for a partner without the extensions: an `FADD_C` acts as `ATOMIC` add (spec R270, R309). -/
def Txn.plain (t : Txn) : Txn := if t.op = 4 then { t with hdr := bset t.hdr 0 8 3 } else t

/-- Puts a send on a link; none when the replay buffer has no room (spec R309, R313). -/
def State.putLink (s : State) (x : Nat) (t : Txn) (send : Option Nat) : Option State :=
  if x = 24 then some { s with fab := { s.fab with loop := s.fab.loop ++ [t] } }
  else if x < 16 then some (s.wireOut (if (s.ual x).pkind = 1 then .packet x t else .request x (Txn.plain t)))
  else if !((s.spn (x - 16)).room (t.units.length + 1)) then none
  else some (s.spnFlits (x - 16) send (flitsOf t))

/-- A packet with a place: `left` of a `POST` counts its lines, and a contribution whose `FCOLL` has completed is awaited no more
(spec R274, R288). -/
def State.setPlaced (s : State) (o : OutTxn) (i x : Nat) (t : Txn) : State :=
  let s1 := s.setPkts o.tag (o.pkts.modify i fun p => { p with st := .placed x }) o.failed
  match o.org with
  | .access _ _ => s1
  | .cmd c q =>
    match s1.fabCmd c q with
    | some v => if t.op = 9 then s1.setFabCmd { v with left := v.left + t.units.length } else s1
    | none => if t.op = 7 then s.setPkts o.tag (o.pkts.eraseIdx i) o.failed else s1

/-- Places the first waiting packet of a tag, if it can be placed; `b` holds the links whose replay buffer has no room for a packet
before it, which no later one passes (spec R277, R313, R323). -/
def State.placeOut (b : List Nat × State) (tag : Nat) : List Nat × State :=
  match b.2.fab.outs.find? fun o => o.tag = tag with
  | none => b
  | some o =>
    match o.pkts.findIdx? (fun p => p.st = .waits) with
    | none => b
    | some i =>
      match o.pkts[i]? with
      | none => b
      | some p =>
        match b.2.routeOf p.txn with
        | .wait => b
        | .bad st => (b.1, b.2.pktDone tag i st 0 none)
        | .link x =>
          if b.1.contains x then b
          else
            match b.2.putLink x p.txn (some p.ord) with
            | none => (x :: b.1, b.2)
            | some s1 => (b.1, s1.setPlaced o i x p.txn)

/-- Places an answer, keeps it waiting, or drops and counts it (spec R361). -/
def State.placeAnswer (s : State) (t : Txn) : State :=
  match s.routeOf t with
  | .wait => { s with fab := { s.fab with answers := s.fab.answers ++ [t] } }
  | .bad _ =>
    { s with fab := { s.fab with adrop := bset s.fab.adrop 0 32 (min (bfld s.fab.adrop 0 32 + 1) (2 ^ 32 - 1)) } }
  | .link x =>
    match s.putLink x t none with
    | none => { s with fab := { s.fab with answers := s.fab.answers ++ [t] } }
    | some s1 => s1

/-- Puts an entry into a list in ascending order of its number. -/
def insOrd (x : Nat × Nat) : List (Nat × Nat) → List (Nat × Nat)
  | [] => [x]
  | y :: r => if x.1 ≤ y.1 then x :: y :: r else y :: insOrd x r

/-- Number and tag of each packet that stands as `st`, in the order they were sent. -/
def Fab.ordered (f : Fab) (st : PSt) : List (Nat × Nat) :=
  (f.outs.flatMap fun o => (o.pkts.filter fun p => p.st = st).map fun p => (p.ord, o.tag)).foldr insOrd []

/-- Places every send and answer that waits and can be placed (spec R277, R323, R361). -/
def State.placeAll (s : State) : State :=
  let s1 := ((s.fab.ordered .waits).map Prod.snd).foldl State.placeOut ([], s) |>.2
  s1.fab.answers.foldl State.placeAnswer { s1 with fab := { s1.fab with answers := [] } }

/-! ### Holds -/

/-- The hold mode of a device for a partition: true for DROP (spec R277). -/
def State.holdMode (s : State) (part dst : Nat) : Option Bool := SMap.get none (s.part part).hold dst

/-- The count of sends in the buffer of the device (spec R277). -/
def State.heldCount (s : State) : Nat :=
  s.fab.outs.foldl (fun n o => n + (o.pkts.filter fun p => p.st = .held).length) 0

/-- Drops the first packet of a tag that is held for a device in mode DROP (spec R277). -/
def State.dropOne (s : State) (tag : Nat) : State :=
  match s.fab.outs.find? fun o => o.tag = tag with
  | none => s
  | some o =>
    match o.pkts.findIdx? (fun p => p.st.here && s.holdMode o.part p.txn.dst = some true) with
    | none => s
    | some i => s.pktDone tag i 4 0 none

/-- Drops every held packet whose device is in mode DROP (spec R277). -/
def State.dropHeld (s : State) : State :=
  (s.fab.outs.flatMap fun o => (o.pkts.filter fun p => p.st.here).map fun _ => o.tag).foldl State.dropOne s

/-- Every packet not answered yet is changed, with its partition. -/
def State.mapPkts (s : State) (f : Nat → OutPkt → OutPkt) : State :=
  { s with fab := { s.fab with outs := s.fab.outs.map fun o => { o with pkts := o.pkts.map (f o.part) } } }

/-- Held packets whose device left the set wait for a link (spec R277). -/
def State.freeHeld (s : State) : State :=
  s.mapPkts fun part p => if p.st.here && (s.holdMode part p.txn.dst).isNone then { p with st := .waits } else p

/-- Packets held outside the buffer enter it in order, while it has room (spec R277). -/
def State.fillHeld (s : State) : State :=
  let l := ((s.fab.ordered .full).take (4096 - s.heldCount)).map Prod.fst
  s.mapPkts fun _ p => if p.st = .full && l.contains p.ord then { p with st := .held } else p

/-- The hold sets act on the packets held (spec R277). -/
def State.holdPass (s : State) : State := s.dropHeld.freeHeld.fillHeld

/-- The sends of an issuer, one to each device named, would meet the hold set of its partition and not find room in the buffer
(spec R277). -/
def State.holdFull (s : State) (part : Nat) (dsts : List Nat) : Bool :=
  decide (4096 < s.heldCount + (dsts.filter fun d => s.holdMode part d = some false).length)

/-- The next tag. -/
def State.takeTag (s : State) : Nat × State :=
  (s.fab.nextTag.toNat, { s with fab := { s.fab with nextTag := s.fab.nextTag + 1 } })

/-- The packets of a partition's sends, numbered from `k`; `n` stand in the buffer so far (spec R277). -/
def State.newPkts (s : State) (part : Nat) : Nat → Nat → List Txn → List OutPkt
  | _, _, [] => []
  | k, n, t :: r =>
    let hold := (s.holdMode part t.dst).isSome
    { txn := t, st := if !hold then .waits else if n < 4096 then .held else .full, ord := k }
      :: s.newPkts part (k + 1) (n + b2n hold) r

/-- The packets of one tag enter the fabric port (spec R261, R277, R310). -/
def State.sendPkts (s : State) (org : Org) (part tag : Nat) (ts : List Txn) : State :=
  if ts = [] then s
  else
    let pkts := s.newPkts part s.fab.nextOrd s.heldCount ts
    let outs := if s.fab.outs.any fun o => o.tag = tag then
        s.fab.outs.map fun o => if o.tag = tag then { o with pkts := o.pkts ++ pkts } else o
      else s.fab.outs ++ [{ tag := tag, org := org, part := part, pkts := pkts }]
    ({ s with fab := { s.fab with outs := outs, nextOrd := s.fab.nextOrd + ts.length } } : State).holdPass.placeAll

/-! ### Runs of bytes as packets -/

/-- The size of the largest naturally aligned piece at a VA, at most `n` and 8 bytes. -/
def pieceLen (va n : Nat) : Nat :=
  if va % 8 = 0 && 8 ≤ n then 8 else if va % 4 = 0 && 4 ≤ n then 4 else if va % 2 = 0 && 2 ≤ n then 2 else 1

/-- The type code of an unsigned scalar by its bytes (spec R91). -/
def typeOfLen (n : Nat) : Nat := if n = 8 then 7 else if n = 4 then 6 else if n = 2 then 5 else 4

/-- The lines of a value. -/
def linesOfVal (n v : Nat) : List CLine := (List.range n).map fun i => { data := BitVec.ofNat 512 (v >>> (512 * i)), ok := true }

/-- The packets of a run of bytes: whole lines in WRITE, up to four a packet, and pieces of partial lines in WRITE_S
(spec R199, R310). -/
def runPkts (h : Hdr) : Nat → Nat → Nat → Nat → List Txn
  | 0, _, _, _ => []
  | k + 1, va, n, v =>
    if n = 0 then []
    else
      let full := va % 64 = 0 && 64 ≤ n
      let m := if full then 64 * min 4 (n / 64) else pieceLen va n
      let a := va % 2 ^ 64
      let t := if full then ({ h with op := 1, dst := homeOf a, va := a } : Hdr).txn (linesOfVal (m / 64) v)
        else ({ h with op := 2, dst := homeOf a, va := a, typ := typeOfLen m, opnd0 := v % 2 ^ (8 * m) } : Hdr).txn []
      t :: runPkts h k (va + m) (n - m) (v >>> (8 * m))

/-- Every WRITE of a command carries the total of its lines (spec R310). -/
def totalLines (ts : List Txn) : List Txn :=
  let n := ts.foldl (fun a t => a + t.units.length) 0
  ts.map fun t => if t.op = 1 then { t with hdr := bset t.hdr 320 64 n } else t

/-- The packets of the remote runs of a store. -/
def rsegPkts (h : Hdr) (rs : List RSeg) (data : Nat) : List Txn :=
  totalLines (rs.flatMap fun r => runPkts h (r.len + 1) r.va.toNat r.len (data >>> (8 * r.off)))

end Sys2Proof.Machine
end

