-- ==== Sys2Proof/Machine/Fabric.lean ====
section
/-! DEFINITION. The fabric engine: parcel slots, drain markers, the progress of commands (spec R261 to R277, R287 to R290, R360), and
what this device does with each transaction it receives (spec R264 to R275, R289, R310, R361). -/

namespace Sys2Proof.Machine

/-! ### Parcel slots -/

/-- A slot of the parcel table. -/
def State.slot (s : State) (x : Nat) : Slot := SMap.get {} s.slots x

/-- A slot replaced. -/
def State.setSlot (s : State) (x : Nat) (v : Slot) : State := { s with slots := SMap.set {} s.slots x v }

/-- The generation advances by one; it skips 0 (spec R279). -/
def Slot.advance (v : Slot) : Slot := { v with gen := if v.gen = 0xFFFF then 1 else v.gen + 1 }

/-- The slot enters FREE (spec R279, R280). -/
def Slot.free (v : Slot) : Slot := { v.advance with st := 0, peer := none }

/-- The handle of a slot in its present generation (spec R279). -/
def Slot.handle (v : Slot) (x : Nat) : BitVec 32 := v.gen ++ BitVec.ofNat 16 (x % 4096)

/-- The context of a slot's receive timeline (spec R278). -/
def recvCtx (x : Nat) : Nat := 5 * 4096 + x

/-- The state of a slot replaced. -/
def State.slotSt (s : State) (x st : Nat) : State := s.setSlot x { s.slot x with st := st }

/-- An arm ends without an arrival (spec R280, R289). -/
def State.endArm (s : State) (x kind : Nat) : State :=
  (s.setSlot x (s.slot x).free).finish (recvCtx x) (s.slot x).arm (some (kind, 0)) 0

/-- A handle still names its slot, which a `POST` holds (spec R287, R290). -/
def State.posting (s : State) (h : BitVec 32) : Bool :=
  let v := s.slot (bfld h 0 12)
  v.gen.toNat = bfld h 16 16 && (v.st = 2 || v.st = 3)

/-- A request area. -/
def State.area (s : State) (x : Nat) : Area := SMap.get {} s.fab.areas x

/-! ### Commands -/

/-- A fabric command completes (spec R217, R260). -/
def State.fabFinish (s : State) (c : FabCmd) (fail : Option (Nat × Nat)) : State :=
  ({ s with fab := { s.fab with cmds := s.fab.cmds.filter fun x => !(x.ctx = c.ctx && x.seq = c.seq) } } : State).finish
    c.ctx c.seq fail c.flags

/-- Packets of a command wait for an answer. -/
def State.cmdOpen (s : State) (c : FabCmd) : Bool := s.fab.outs.any fun o => o.org = .cmd c.ctx c.seq

/-- Every access of the strand before the command has performed at fabric scope (spec R261). -/
def State.relOpen (s : State) (c : FabCmd) : Bool := !((s.remoteIds c.sid).any fun i => decide (i < c.gate))

/-- The header of a command's packets (spec R310). -/
def State.fabHdr (s : State) (c : FabCmd) (op dst : Nat) : Hdr :=
  { op := op, dst := dst, src := s.mem.devid.toNat, rel := c.rel, ctx := c.ctx % 64, tag := c.tag, pasid := c.pasid }

/-- Sends packets of a command; the command is replaced first. -/
def State.fabSend (s : State) (c : FabCmd) (ts : List Txn) : State := (s.setFabCmd c).sendPkts (.cmd c.ctx c.seq) c.part c.tag ts

/-- A local line as it leaves the device: its bytes, and whether its check holds (spec R193). -/
def State.readLine (s : State) (own : Bool) (pasid va : Nat) : Except VFault (CLine × State) :=
  if !(s.isLocal va) then .error (.mem 0x04 va)
  else
    match (if own then s.translateOwn pasid va 64 .read else s.translate pasid va 64 .read) with
    | .error f => .error f
    | .ok (segs, s1) => .ok ({ data := BitVec.ofNat 512 (s1.mem.gather segs), ok := (s1.mem.badSeg segs).isNone }, s1)

/-- The lines from a VA up that can leave the device, at most `k`: those before the first that cannot (spec R193). -/
def State.readLines : Nat → Nat → Nat → State → List CLine × State
  | 0, _, _, s => ([], s)
  | k + 1, pasid, va, s =>
    match s.readLine false pasid va with
    | .error _ => ([], s)
    | .ok (l, s1) =>
      if !l.ok then ([], s1)
      else
        let (r, s2) := State.readLines k pasid ((va + 64) % 2 ^ 64) s1
        (l :: r, s2)

/-- Why a line of a source could not be read: the error-word entry, or a wait (spec R224, R260). -/
inductive SrcFault where
  | fail (k : Nat × Nat) (s : State)
  | wait (s : State)

/-- What a failing source line does to a command of partition `part` (spec R224, R260). -/
def State.srcFault (s : State) (part pasid : Nat) (r : Except VFault (CLine × State)) : SrcFault :=
  match r with
  | .error (.pageIn code va) => .wait (s.pageInEvent part pasid va code)
  | .error .frozen => .wait s
  | .error (.mem code va) => .fail (1, code) (s.nodeSeen part pasid va code)
  | .error (.parcel _ _) => .fail (4, 3) s
  | .ok (_, s1) => .fail (2, 0) s1

/-- A page-in, not a freeze, holds a command. -/
def pageHeld : Except VFault (CLine × State) → Bool
  | .error (.pageIn _ _) => true
  | .error .frozen | .error (.mem _ _) | .error (.parcel _ _) | .ok _ => false

/-- Sends the lines of an `FSTV` that can leave (spec R224, R264). After a failing line, which of the others are written is open
(log entry 12). -/
def State.sendLines : Nat → State → Nat → Nat → State
  | 0, s, _, _ => s
  | k + 1, s, x, q =>
    match s.fabCmd x q with
    | none => s
    | some c =>
      match c.kind with
      | .lines src dst bar n =>
        let a := (dst.toNat + 64 * c.sent) % 2 ^ 64
        let va := (src.toNat + 64 * c.sent) % 2 ^ 64
        if decide (n ≤ c.sent) || c.stalled || s.holdFull c.part [homeOf a] then s
        else
          let room := (2 ^ 53 - a % 2 ^ 53) / 64
          let (ls, s1) := s.readLines (if c.fail.isSome then 1 else min (min 4 (n - c.sent)) room) c.pasid va
          if ls = [] then
            let r := s.readLine false c.pasid va
            match s.srcFault c.part c.pasid r with
            | .wait s2 =>
              if c.fail.isSome then State.sendLines k (s.setFabCmd { c with sent := c.sent + 1 }) x q
              else s2.setFabCmd { c with stalled := pageHeld r }
            | .fail e s2 => State.sendLines k (s2.setFabCmd { c.failed e with sent := c.sent + 1 }) x q
          else if c.fail.isSome && Config.freeBool s.free 0 then
            State.sendLines k (({ s with free := s.free + 1 } : State).setFabCmd { c with sent := c.sent + 1 }) x q
          else
            let h : Hdr := { s1.fabHdr c 1 (homeOf a) with va := a, aux := bar.toNat, opnd1 := n }
            let s2 : State := if c.fail.isSome then { s1 with free := s1.free + 1 } else s1
            State.sendLines k (s2.fabSend { c with sent := c.sent + ls.length } [h.txn ls]) x q
      | .store _ _ _ _ | .atom _ _ _ _ _ _ | .req _ _ | .coll _ _ | .drain _ | .post _ _ _ _ _ => s

/-- The word a command writes before it completes: its completion, its failure, or its wait for a page (spec R360). -/
def State.fabWord (s : State) (c : FabCmd) (va val : Nat) : State :=
  let w : WordWr :=
    { part := c.part, pasid := c.pasid, va := va, len := 8, val := val, add := false, after := .cmd c.ctx c.seq c.fail }
  match s.wordWrite w with
  | .ok s1 => s1.fabFinish c c.fail
  | .fail k d s1 => s1.fabFinish c (some (c.fail.getD (k, d)))
  | .stall s1 => (s1.setFabCmd { c with st := 4 }).wordWait w

/-- An atomic is answered: its reply, with the conditions of a floating add (spec R269, R270). -/
def State.atomReply (s : State) (c : FabCmd) (fn typ : Nat) (b : W64) (reply : Option W64) : State :=
  let old := (c.old.getD 0).toNat % 2 ^ tyW typ
  let c1 := { c with flags := if fn = 0 then (atomNew 0 typ old (b.toNat % 2 ^ tyW typ) 0).2 else 0 }
  match c.fail, reply with
  | none, some va => s.fabWord c1 va.toNat (atomOld typ old).toNat
  | _, _ => s.fabFinish (if c.fail.isSome then c else c1) c.fail

/-! ### Collectives -/

/-- Fields of a collective descriptor (spec R273). -/
def collKind (d : Line) : Nat := bfld d 8 4
/-- The reduction. -/
def collRed (d : Line) : Nat := bfld d 12 4
/-- The type. -/
def collType (d : Line) : Nat := bfld d 16 5
/-- The group. -/
def collGroup (d : Line) : Nat := bfld d 32 12
/-- The chunk size in lines. -/
def collCl (d : Line) : Nat := bfld d 208 16
/-- The element count. -/
def collN (d : Line) : Nat := bfld d 224 32
/-- The send buffer. -/
def collSva (d : Line) : Nat := bfld d 256 64
/-- The receive buffer. -/
def collRva (d : Line) : Nat := bfld d 320 64

/-- The bits of the send buffer for `p` members (spec R274). -/
def collSend (d : Line) (p : Nat) : Nat := if collKind d = 2 then collN d / p * tyW (collType d) else collN d * tyW (collType d)

/-- The bits of the receive buffer. -/
def collRecv (d : Line) (p : Nat) : Nat := if collKind d = 1 then collN d / p * tyW (collType d) else collN d * tyW (collType d)

/-- The members of a group, in rank order, with their switch ports. -/
def State.members (s : State) (g : Nat) : List (Nat × Nat) := SMap.get [] s.fab.groups g

/-- The lines of the receive buffer. -/
def State.collLines (s : State) (d : Line) : Nat := collRecv d (s.members (collGroup d)).length / 512

/-- A chunk is done: each of its lines has performed (spec R275). -/
def State.chunkDone (s : State) (v : Coll) (j : Nat) : Bool :=
  let lo := collCl v.desc * j
  (rangeFrom lo (min (collCl v.desc) (s.collLines v.desc - lo))).all fun i => v.got.contains i

/-- The collective of a fabric context. -/
def State.coll (s : State) (x : Nat) : Coll := SMap.get {} s.fab.colls x

/-- The collective of a fabric context replaced. -/
def State.setColl (s : State) (x : Nat) (v : Coll) : State := { s with fab := { s.fab with colls := SMap.set {} s.fab.colls x v } }

/-- A line of the receive buffer takes a free value (spec R275; log entry 14). -/
def State.freeLine (s : State) (pasid : Nat) (d : Line) (i : Nat) : State :=
  match s.translate pasid ((collRva d + 64 * i) % 2 ^ 64) 64 .write with
  | .error _ => s
  | .ok (segs, s1) =>
    { s1 with mem := (s1.mem.scatter segs (bfld (Config.freeVec s1.free) 0 512)).1, free := s1.free + 1 }

/-- A packet has not left the device. -/
def OutPkt.inside (p : OutPkt) : Bool := p.st.here || p.st = .waits

/-- Packets of a command have not left the device. -/
def State.cmdWaits (s : State) (c : FabCmd) : Bool :=
  s.fab.outs.any fun o => o.org = .cmd c.ctx c.seq && o.pkts.any OutPkt.inside

/-- A collective ends: its packets that have left are no longer awaited (those that have not still go to the other members), and its
command completes. -/
def State.collEnd (s : State) (c : FabCmd) : State :=
  let x := c.ctx % 64
  let s1 := s.setColl x { s.coll x with busy := false }
  let keep (o : OutTxn) : Option OutTxn :=
    if o.org ≠ .cmd c.ctx c.seq then some o
    else if o.pkts.any OutPkt.inside then some { o with pkts := o.pkts.filter OutPkt.inside }
    else none
  ({ s1 with fab := { s1.fab with outs := s1.fab.outs.filterMap keep } } : State).fabFinish c c.fail

/-- A collective with every line of its result written completes once its own contribution has left, so that its reads are done
(spec R217, R274). Which conditions the switches met is open: any of a sum, but only NV of a minimum or maximum (spec R157; log entry 62). -/
def State.collDone (s : State) (c : FabCmd) (d : Line) : State :=
  let all := collSend d (s.members (collGroup d)).length / 512
  if decide ((s.coll (c.ctx % 64)).got.length < s.collLines d) || decide (c.sent < all) || s.cmdWaits c then s
  else if 16 ≤ collType d && collKind d ≠ 2 then
    ({ s with free := s.free + 1 } : State).collEnd { c with
      flags := bfld (Config.freeVec s.free) 0 6 &&& (if collRed d = 0 then 63 else fNV) }
  else s.collEnd c

/-- A collective fails: the chunks not done hold undefined values (spec R275). -/
def State.collFail (s : State) (c : FabCmd) : State :=
  let v := s.coll (c.ctx % 64)
  let ls := (List.range (s.collLines v.desc)).filter fun i => !(s.chunkDone v (i / max (collCl v.desc) 1))
  (ls.foldl (fun t i => t.freeLine c.pasid v.desc i) s).collEnd c

/-- Sends the contribution of an `FCOLL` (spec R274, R310). -/
def State.sendColl : Nat → State → Nat → Nat → State
  | 0, s, _, _ => s
  | f + 1, s, x, q =>
    match s.fabCmd x q with
    | none => s
    | some c =>
      match c.kind with
      | .coll d k =>
        let ms := s.members (collGroup d)
        let n := collSend d ms.length / 512
        let own := s.mem.devid.toNat
        let dst := ((ms.map Prod.fst).find? (· ≠ own)).getD own
        let va := (collSva d + 64 * c.sent) % 2 ^ 64
        if decide (n ≤ c.sent) || c.stalled || c.fail.isSome || s.holdFull c.part [dst] then s
        else
          let (ls, s1) := s.readLines (min 4 (n - c.sent)) c.pasid va
          if ls = [] then
            let r := s.readLine false c.pasid va
            match s.srcFault c.part c.pasid r with
            | .wait s2 => s2.setFabCmd { c with stalled := pageHeld r }
            | .fail e s2 => s2.setFabCmd (c.failed e)
          else
            let h : Hdr := { s1.fabHdr c 7 dst with typ := collType d, fn := collKind d + 16 * collRed d,
                                                    aux := collGroup d + c.sent * 2 ^ 12, opnd0 := collN d, opnd1 := k }
            State.sendColl f (s1.fabSend { c with sent := c.sent + ls.length } [h.txn ls]) x q
      | .store _ _ _ _ | .lines _ _ _ _ | .atom _ _ _ _ _ _ | .req _ _ | .drain _ | .post _ _ _ _ _ => s

/-! ### Drain markers -/

/-- The `FDRAIN` that a marker belongs to. -/
def State.markOwner (s : State) (x n : Nat) : Option FabCmd :=
  s.fab.cmds.find? fun c => match c.kind with
    | .drain l => l.contains (x, n)
    | .store _ _ _ _ | .lines _ _ _ _ | .atom _ _ _ _ _ _ | .req _ _ | .coll _ _ | .post _ _ _ _ _ => false

/-- An undeliverable marker goes to the error log of its partition, with the partner as its home (spec R262, R324). -/
def State.markLost (s : State) (x n : Nat) : State :=
  match s.markOwner x n with
  | some c => s.fbLog c.part (c.ctx % 64) (s.partner x).2 1 0
  | none => s

/-- A marker has completed: the number of its link, and the `FDRAIN` that sent it (spec R276). -/
def State.markDone (s : State) (x n : Nat) (fail : Option (Nat × Nat)) : State :=
  let cmds := s.fab.cmds.map fun c =>
    match c.kind with
    | .drain l =>
      if l.contains (x, n) then
        { c with kind := .drain (l.filter (· ≠ (x, n))), fail := match fail with
                  | some e => some (c.fail.getD e)
                  | none => c.fail }
      else c
    | .store _ _ _ _ | .lines _ _ _ _ | .atom _ _ _ _ _ _ | .req _ _ | .coll _ _ | .post _ _ _ _ _ => c
  ({ s with fab := { s.fab with cmds := cmds } } : State).finish (linkCtx x) n fail 0

/-- Sends one marker of an UP link: a MARK packet, or a MARKER flit; a partner without the extensions takes none
(spec R276, R309, R310, R322). None when the replay buffer has no room. -/
def State.sendMark (s : State) (x n : Nat) : Option State :=
  let (k, id) := s.partner x
  if x < 16 then
    if k ≠ 1 then some ((s.markLost x n).markDone x n (some (3, 1)))
    else
      let t := ({ op := 12, dst := id, src := s.mem.devid.toNat, ctx := 0 } : Hdr).txn []
      let v := s.ual x
      some ((s.setUal x { v with sentMarks := v.sentMarks ++ [n] }).wireOut (.packet x t))
  else if k = 0 then some ((s.markLost x n).markDone x n (some (3, 1)))
  else
    let v := s.spn (x - 16)
    if !(v.room 1) then none
    else
      let f : FlitF := { typ := 2, dst := id, src := s.mem.devid.toNat }
      some ((s.setSpn (x - 16) { v with sentMarks := v.sentMarks ++ [n] }).spnFlits (x - 16) none [f])

/-- The markers that wait on a link. -/
def State.marksOf (s : State) (x : Nat) : List Nat := if x < 16 then (s.ual x).marks else (s.spn (x - 16)).marks

/-- The markers that wait on a link replaced. -/
def State.setMarks (s : State) (x : Nat) (l : List Nat) : State :=
  if x < 16 then s.setUal x { s.ual x with marks := l } else s.setSpn (x - 16) { s.spn (x - 16) with marks := l }

/-- Sends the markers that wait on a link, while it is UP and has room (spec R322). -/
def State.sendMarks : Nat → State → Nat → State
  | 0, s, _ => s
  | k + 1, s, x =>
    match s.marksOf x with
    | [] => s
    | n :: r =>
      if !(s.linkUp x) then s
      else
        match (s.setMarks x r).sendMark x n with
        | none => s
        | some s1 => State.sendMarks k s1 x

/-- An `FDRAIN` starts: each marker takes the next number of its link (spec R276). -/
def State.startMarks : List Nat → State → List (Nat × Nat) × State
  | [], s => ([], s)
  | x :: r, s =>
    let (n, s1) := s.takeSeq (linkCtx x)
    let (l, s2) := State.startMarks r (s1.setMarks x (s1.marksOf x ++ [n]))
    ((x, n) :: l, s2)

/-! ### Posts -/

/-- A packet of a `POST`: a line, the commit or the abort marker (spec R310). -/
def State.postHdr (s : State) (c : FabCmd) (op : Nat) (target : W64) : Hdr :=
  { s.fabHdr c op (bfld target 0 11) with aux := target.toNat }

/-- The result code and failure of a `POST` from what stopped it (spec R260, R288). -/
def postResult (e : Nat × Nat) : Nat × (Nat × Nat) :=
  if e.1 = 6 then (2, e)
  else if e.1 = 7 then (3, e)
  else if e = (3, 3) || e.1 = 2 then (5, (2, 0))
  else (4, e)

/-- The slot of a `POST` whose commit was sent is still the one it posts: a later revocation leaves it so (spec R290). -/
def State.committed (s : State) (h : BitVec 32) : Bool := let v := s.slot (bfld h 0 12); v.st = 2 || v.st = 3

/-- The slot of a `POST` that did not arrive returns to OPEN, if its handle still holds (spec R280); `sent` says that the commit was
sent. -/
def State.reopen (s : State) (h : BitVec 32) (sent : Bool) : State :=
  if s.posting h || (sent && s.committed h) then s.slotSt (bfld h 0 12) 1 else s

/-- A `POST` ends with its result: the status word, then completion (spec R288, R360). -/
def State.postEnd (s : State) (c : FabCmd) (stat : Option W64) : State :=
  match stat with
  | none => s.fabFinish c c.fail
  | some va =>
    let v := c.result * 2 ^ 56 + c.left
    if s.isLocal va.toNat then s.fabWord c va.toNat v
    else
      let h : Hdr := { s.fabHdr c 2 (homeOf va.toNat) with va := va.toNat, typ := 7, opnd0 := v }
      s.fabSend { c with st := 5 } [h.txn []]

/-- A `POST` stops without an arrival: the abort marker goes out unless the target refused the parcel (spec R287, R290). -/
def State.postStop (s : State) (c : FabCmd) (h : BitVec 32) (target : W64) (stat : Option W64) (e : Nat × Nat) : State :=
  let (r, f) := postResult e
  let c1 := { c with result := r, fail := some f }
  let s1 := s.reopen h (c.st = 2)
  if r = 2 then s1.postEnd c1 stat
  else s1.fabSend { c1 with st := 3 } [(s1.postHdr c1 11 target).txn []]

/-- A `POST` under way: the next line, the commit, or its end (spec R287, R290). -/
def State.postStep (s : State) (c : FabCmd) (h : BitVec 32) (base : W64) (size : Nat) (target : W64) (stat : Option W64) : State :=
  match c.fail with
  | some e => s.postStop c h target stat e
  | none =>
    if !(s.posting h) then s.postStop c h target stat (7, 0)
    else if 64 * c.sent < size then
      if c.stalled || s.holdFull c.part [bfld target 0 11] then s
      else
        let r := s.readLine true c.pasid ((base.toNat + 64 * c.sent) % 2 ^ 64)
        match r with
        | .error (.pageIn _ _) | .error .frozen | .error (.mem _ _) | .error (.parcel _ _) =>
          match s.srcFault c.part c.pasid r with
          | .wait s1 => s1.setFabCmd { c with stalled := pageHeld r }
          | .fail e s1 => s1.postStop c h target stat e
        | .ok (l, s1) =>
          if !l.ok then s1.postStop c h target stat (2, 0)
          else
            let c1 := { c with sent := c.sent + 1 }
            let s2 := if size ≤ 64 * c1.sent then s1.slotSt (bfld h 0 12) 3 else s1
            s2.fabSend c1 [({ s2.postHdr c1 9 target with opnd0 := 64 * c.sent, opnd1 := size } : Hdr).txn [l]]
    else if !(s.relOpen c) then s
    else s.fabSend { c with st := 2 } [({ s.postHdr c 10 target with opnd0 := c.sent, opnd1 := size } : Hdr).txn []]

/-! ### Progress -/

/-- A command whose turn has come starts, or goes on (spec R261). -/
def State.fabGo (s : State) (c : FabCmd) : State :=
  match c.kind with
  | .store va typ data bar =>
    if c.sent = 0 then
      if s.holdFull c.part [homeOf va.toNat] then s
      else
        let h : Hdr := { s.fabHdr c 2 (homeOf va.toNat) with
                          va := va.toNat, typ := typ, opnd0 := data.toNat % 2 ^ tyW typ, aux := bar.toNat }
        s.fabSend { c with sent := 1 } [h.txn []]
    else if s.cmdOpen c then s
    else s.fabFinish c c.fail
  | .lines _ _ _ n =>
    let s1 := s.sendLines (n + 1) c.ctx c.seq
    match s1.fabCmd c.ctx c.seq with
    | none => s1
    | some c1 => if c1.sent < n || s1.cmdOpen c1 then s1 else s1.fabFinish c1 c1.fail
  | .atom fn typ va b reply comb =>
    if c.sent = 0 then
      if s.holdFull c.part [homeOf va.toNat] then s
      else
        let h : Hdr := { s.fabHdr c (if comb then 4 else 3) (homeOf va.toNat) with
                          va := va.toNat, typ := typ, fn := fn, opnd0 := b.toNat % 2 ^ tyW typ }
        s.fabSend { c with sent := 1 } [h.txn []]
    else if s.cmdOpen c then s
    else s.atomReply c fn typ b reply
  | .req src target =>
    if c.sent = 0 then
      if c.stalled || s.holdFull c.part [bfld target 0 11] then s
      else
        let r := s.readLine false c.pasid src.toNat
        match r with
        | .error (.pageIn _ _) | .error .frozen | .error (.mem _ _) | .error (.parcel _ _) =>
          match s.srcFault c.part c.pasid r with
          | .wait s1 => s1.setFabCmd { c with stalled := pageHeld r }
          | .fail e s1 => s1.fabFinish c (some e)
        | .ok (l, s1) =>
          if !l.ok then s1.fabFinish c (some (2, 0))
          else
            let u : CLine := { l with data := bset l.data 0 64 (c.seq % 2 ^ 32 * 2 ^ 32) }
            let h : Hdr := { s1.fabHdr c 6 (bfld target 0 11) with aux := target.toNat }
            s1.fabSend { c with sent := 1 } [h.txn [u]]
    else if s.cmdOpen c then s
    else s.fabFinish c c.fail
  | .coll d _ =>
    let s1 := s.sendColl (collSend d (s.members (collGroup d)).length / 512 + 1) c.ctx c.seq
    match s1.fabCmd c.ctx c.seq with
    | none => s1
    | some c1 => if c1.fail.isSome then s1.collFail c1 else s1.collDone c1 d
  | .drain l =>
    if c.sent = 0 then
      let (ms, s1) := s.startMarks (l.map Prod.fst)
      let s2 := s1.setFabCmd { c with kind := .drain ms, sent := 1 }
      ms.foldl (fun t m => t.sendMarks (t.marksOf m.1).length m.1) s2
    else if l = [] then s.fabFinish c c.fail
    else s
  | .post h base size target stat => if s.cmdOpen c then s else s.postStep c h base size target stat

/-- One command goes on as far as it can now. -/
def State.fabStep (s : State) (x q : Nat) : State :=
  match s.fabCmd x q with
  | none => s
  | some c =>
    if c.st = 0 then
      if !(s.gateOpen c.sid (some c.gate)) || (c.rel && !(s.relOpen c)) then s
      else
        let (tag, s1) := s.takeTag
        let c1 := { c with tag := tag, st := 1 }
        (s1.setFabCmd c1).fabGo c1
    else if c.st = 1 then s.fabGo c
    else if c.st = 4 || s.cmdOpen c then s
    else
      match c.kind with
      | .post h _ _ target stat =>
        if c.st = 2 then
          match c.fail with
          | some e => s.postStop c h target stat e
          | none =>
            let x1 := bfld h 0 12
            let s1 := if s.committed h then s.setSlot x1 (s.slot x1).free else s
            s1.postEnd { c with result := 1 } stat
        else if c.st = 3 then s.postEnd c stat
        else s.fabFinish c c.fail
      | .store _ _ _ _ | .lines _ _ _ _ | .atom _ _ _ _ _ _ | .req _ _ | .coll _ _ | .drain _ => s

/-- Every command goes on as far as it can. -/
def State.fabPass (s : State) : State := s.fab.cmds.foldl (fun t c => t.fabStep c.ctx c.seq) s

/-- What the fabric engine does after an event: sends and answers are placed, and commands go on. -/
def State.fabTick (s : State) : State := s.placeAll.fabPass.fabPass

/-! ### Transactions received -/

/-- What a home or a target does with a transaction. -/
inductive Home where
  /-- it waits: a page is frozen or locked (spec R189, R333) -/
  | stall (s : State)
  /-- a DONE with a status, a `MEMORY` code and a handle -/
  | done (s : State) (status mcode handle : Nat)
  /-- a REPLY with the old value -/
  | reply (s : State) (old : Nat)
  /-- no answer -/
  | quiet (s : State)

/-- The DONE of a transaction (spec R310). -/
def State.doneTxn (s : State) (t : Txn) (status mcode handle : Nat) : Txn :=
  ({ op := 0x10, dst := t.src, src := s.mem.devid.toNat, ctx := 0, tag := t.tag,
     opnd0 := status % 256 + mcode % 256 * 2 ^ 8 + handle % 2 ^ 32 * 2 ^ 32 } : Hdr).txn []

/-- The REPLY of a transaction (spec R310). -/
def State.replyTxn (s : State) (t : Txn) (old : Nat) : Txn :=
  ({ op := 0x11, dst := t.src, src := s.mem.devid.toNat, ctx := 0, tag := t.tag, opnd0 := old } : Hdr).txn []

/-- One copy of a transaction leaves the ones this device sent to itself. -/
def State.unqueue (s : State) (t : Txn) : State := { s with fab := { s.fab with loop := s.fab.loop.erase t } }

/-- An earlier packet of the same command is stalled here. -/
def State.behind (s : State) (t : Txn) : Bool := s.fab.stalled.any fun u => u.src = t.src && u.tag = t.tag

/-- Receives a transaction of operation `op` and answers it (spec R309, R310). -/
def State.receive (s : State) (t : Txn) (op : Nat) (act : State → Home) : State :=
  if t.op ≠ op then s
  else
    let s0 := s.unqueue t
    if t.reserved || t.dst ≠ s.mem.devid.toNat || t.count ≠ t.units.length then
      (s0.placeAnswer (s0.doneTxn t 1 0 0)).fabTick
    else if s0.behind t then { s0 with fab := { s0.fab with stalled := s0.fab.stalled ++ [t] } }
    else
      match act s0 with
      | .stall s1 => { s1 with fab := { s1.fab with stalled := s1.fab.stalled ++ [t] } }
      | .done s1 st mc h => (s1.placeAnswer (s1.doneTxn t st mc h)).fabTick
      | .reply s1 old => (s1.placeAnswer (s1.replyTxn t old)).fabTick
      | .quiet s1 => s1.fabTick

/-- A fault of a walk under a PASID at the home (spec R188, R190, R212, R264). -/
def State.homeFault (s : State) (pasid : Nat) (f : VFault) : Home :=
  match f with
  | .frozen => .stall s
  | .mem c va => .done (s.nodeSeen (2 ^ 16) pasid va c) 2 c 0
  | .pageIn c _ => .done s 2 c 0
  | .parcel _ _ => .done s 2 0 0

/-- A host event for lines of a transaction that fail their check; it belongs to no partition (spec R193). -/
def State.homeLines (s : State) (ls : List Nat) : State := s.lineEvents (2 ^ 16) ls

/-- Counts the barrier object of a command once all its lines have performed (spec R266, R310). -/
def State.barCount (s : State) (t : Txn) (lines : Nat) : Home :=
  if t.aux = 0 then .done s 0 0 0
  else
    let mine := fun (b : Nat × Nat × Nat × Nat) => b.1 = t.src && b.2.1 = t.ctx && b.2.2.1 = t.tag
    let got := ((s.fab.bars.find? mine).map fun b => b.2.2.2).getD 0 + lines
    let rest := s.fab.bars.filter fun b => !(mine b)
    if got < t.opnd1 then .done { s with fab := { s.fab with bars := rest ++ [(t.src, t.ctx, t.tag, got)] } } 0 0 0
    else
      let s1 : State := { s with fab := { s.fab with bars := rest } }
      match s1.translate t.pasid t.aux 64 .write with
      | .error f => s1.homeFault t.pasid f
      | .ok (segs, s2) =>
        match s2.mem.badSeg segs with
        | some l => .done (s2.homeLines [l]) 3 0 0
        | none =>
          let v : Line := BitVec.ofNat 512 (s2.mem.gather segs)
          .done { s2 with mem := (s2.mem.scatter segs (bset v 64 64 (bfld v 64 64 + 1)).toNat).1 } 0 0 0

/-- The barrier object of a transaction stands in a frozen page, so that the transaction waits whole. -/
def State.barFrozen (s : State) (t : Txn) : Bool :=
  t.aux ≠ 0 && (match s.translate t.pasid t.aux 64 .write with
    | .error .frozen => true
    | .error (.mem _ _) | .error (.pageIn _ _) | .error (.parcel _ _) | .ok _ => false)

/-- A write at its home: `n` bytes at va, whole lines or one scalar (spec R193, R199, R264). -/
def State.homeWrite (s : State) (t : Txn) (n v lines : Nat) : Home :=
  if homeOf t.va ≠ t.dst || t.aux % 64 ≠ 0 then .done s 1 0 0
  else if s.barFrozen t then .stall s
  else
    match s.translate t.pasid t.va n .write with
    | .error f => (s.tried t.pasid t.va n .write).homeFault t.pasid f
    | .ok (segs, s1) =>
      if t.units.any fun u => !u.ok then .done s1 3 0 0
      else
        let keep := segs.filter fun g => (linesOf g.pa g.len).any fun l => s1.mem.lineBad l && !(coversLine g.pa g.len l)
        match keep with
        | g :: _ => .done (s1.homeLines ((linesOf g.pa g.len).filter s1.mem.lineBad)) 3 0 0
        | [] => (s1.storeSegs segs v).1.barCount t lines

/-- The value of data units, unit 0 lowest. -/
def unitsVal : List CLine → Nat
  | [] => 0
  | u :: r => u.data.toNat + 2 ^ 512 * unitsVal r

/-- The types an atomic can have (spec R213, R263). -/
def atomType (typ : Nat) : Bool := [2, 3, 6, 7, 16, 17].contains typ

/-- The operation and type of an atomic transaction go together (spec R213, R263, R310). -/
def atomOk (fn typ : Nat) : Bool := atomType typ && decide (fn ≤ 7) && (decide (typ < 16) || fn = 0 || fn = 6 || fn = 7)

/-- An atomic at its home (spec R214, R269). -/
def State.homeAtomic (s : State) (t : Txn) (fn : Nat) : Home :=
  let n := tyW t.typ / 8
  if !(atomOk fn t.typ) || homeOf t.va ≠ t.dst || t.va % n ≠ 0 then .done s 1 0 0
  else
    match s.translate t.pasid t.va n .write with
    | .error f => s.homeFault t.pasid f
    | .ok (segs, s1) =>
      match s1.mem.badSeg segs with
      | some l => .done (s1.homeLines [l]) 3 0 0
      | none =>
        let m := s1.mem.gather segs
        let new := (atomNew fn t.typ m (t.opnd0 % 2 ^ (8 * n)) (t.opnd1 % 2 ^ (8 * n))).1
        .reply (s1.storeSegs segs new).1 m

/-- The data units a BANK operation carries, none for a reserved operation or type (spec R215, R310). -/
def bankUnits (fn typ : Nat) : Option Nat :=
  let float := [16, 17, 18, 19].contains typ
  if fn < 16 then
    if decide (5 < fn % 8) || (float && (decide (2 < fn % 8) || decide (8 ≤ fn))) || (decide (8 ≤ fn) && fn % 8 ≠ 0)
        || (decide (8 ≤ typ) && !float) then none else some 1
  else if fn = 0x20 then (if typ < 8 then some 2 else none)
  else if fn = 0x21 then (if float then some 1 else none)
  else if fn = 0x22 || fn = 0x23 then some 0
  else none

/-- A bank-side command at its home (spec R215, R216, R267). -/
def State.homeBank (s : State) (t : Txn) : Home :=
  if bankUnits t.fn t.typ ≠ some t.units.length || homeOf t.va ≠ t.dst || t.va % 64 ≠ 0 then .done s 1 0 0
  else
    match s.translate t.pasid t.va 64 .write with
    | .error f => s.homeFault t.pasid f
    | .ok (segs, s1) =>
      match s1.mem.badSeg segs with
      | some l => .done (s1.homeLines [l]) 3 0 0
      | none =>
        if t.units.any fun u => !u.ok then .done s1 3 0 0
        else
          let u0 := ((t.units[0]?).map CLine.data).getD 0
          let u1 := ((t.units[1]?).map CLine.data).getD 0
          let b : Line := BitVec.ofNat 512 t.opnd0
          let l : Line := BitVec.ofNat 512 (s1.mem.gather segs)
          let op := if t.fn < 16 then t.fn % 8 else t.fn
          let v := if t.fn < 16 || t.fn = 0x21 then u0 else b
          let x := if t.fn = 0x21 then b else u0
          .done (s1.storeSegs segs (bankNew op t.typ (decide (t.fn < 16) && t.fn.testBit 3) v x u1 l).toNat).1 0 0 0

/-- A request record at its target (spec R271, R272). -/
def State.homeReq (s : State) (t : Txn) : Home :=
  let x := nfld t.aux 16 6
  let v := s.area x
  let c := 6 * 4096 + x
  let d := ((s.ctx c).issued.toNat + 1 + (2 ^ 32 - v.origin.toNat)) % 2 ^ 32
  match t.units with
  | [u] =>
    if v.cap = 0 then .done s 0x11 0 0
    else if v.cap.toNat < d || d = 0 then .done s 0x10 0 0
    else
      match s.translate t.pasid ((v.base.toNat + 64 * (d - 1)) % 2 ^ 64) 64 .write with
      | .error f => s.homeFault t.pasid f
      | .ok (segs, s1) =>
        if !u.ok then .done s1 3 0 0
        else
          let line := bset u.data 0 32 (t.src + t.ctx * 2 ^ 16)
          let s2 : State := { s1 with mem := (s1.mem.scatter segs line.toNat).1 }
          let (m, s3) := s2.takeSeq c
          .done (s3.finish c m none 0) 0 0 0
  | _ => .done s 1 0 0

/-- A parcel line at its target (spec R280, R287, R289). -/
def State.homePline (s : State) (t : Txn) : Home :=
  let x := nfld t.aux 16 12
  let v := s.slot x
  let first := v.st = 4 && t.opnd0 = 0
  let n := 64 * t.units.length
  if t.units = [] || t.opnd0 % 64 ≠ 0 || decide (t.opnd1 < t.opnd0 + n) then .done s 1 0 0
  else if !(first || (v.st = 5 && v.peer = some (t.src, t.tag))) then .done s 0x12 0 0
  else if v.size < t.opnd1 then .done s 0x13 0 0
  else
    let u : Slot := { v with st := 5, peer := some (t.src, t.tag) }
    let at_ := (v.base.toNat + t.opnd0) % 2 ^ 64
    let w := walkPieces v.pasid .write (pieces at_ n) s
    match s.translateOwn v.pasid at_ n .write with
    | .error .frozen => .stall w
    | .error (.pageIn c _) => .done (w.setSlot x u) 2 c 0
    | .error (.mem c va) => .done ((w.nodeSeen v.part v.pasid va c).setSlot x u) 2 c 0
    | .error (.parcel _ _) => .done (s.setSlot x u) 2 0 0
    | .ok (segs, s1) =>
      if t.units.any fun l => !l.ok then .done (s1.setSlot x u) 3 0 0
      else
        let s2 := s1.setSlot x { u with lines := u.lines + t.units.length }
        .done { s2 with mem := (s2.mem.scatter segs (unitsVal t.units)).1 } 0 0 0

/-- The commit of a parcel at its target: it installs the parcel when every line that was sent has performed; else the arm stands and the
commit is refused as for a slot that is not armed (spec R279, R280, R289; log entry 99). -/
def State.homePcommit (s : State) (t : Txn) : Home :=
  let x := nfld t.aux 16 12
  let v := s.slot x
  if !(v.st = 5 && v.peer = some (t.src, t.tag)) || v.lines ≠ t.opnd0 then .done s 0x12 0 0
  else
    let v1 := { v.advance with st := 1, size := t.opnd1, peer := none }
    let h := v1.handle x
    let v2 := { v1 with last := h, handles := SMap.put v.handles v.arm h }
    .done ((s.setSlot x v2).finish (recvCtx x) v.arm none 0) 0 0 h.toNat

/-- The abort marker of a parcel at its target (spec R280, R287, R290). -/
def State.homePabort (s : State) (t : Txn) : Home :=
  let x := nfld t.aux 16 12
  let v := s.slot x
  if v.st = 4 || (v.st = 5 && v.peer = some (t.src, t.tag)) then .done (s.endArm x 3) 0 0 0 else .done s 0 0 0

/-- The running collective that result lines belong to: fabric context and collective (spec R274). -/
def State.collOf (s : State) (t : Txn) : Option (Nat × Coll) :=
  s.fab.colls.find? fun e => e.2.busy && collGroup e.2.desc = nfld t.aux 0 12 && e.2.k = t.opnd1

/-- An answer that this device no longer awaits (spec R361). -/
def State.lateAnswer (s : State) : State :=
  { s with fab := { s.fab with adrop := bset s.fab.adrop 32 32 (min (bfld s.fab.adrop 32 32 + 1) (2 ^ 32 - 1)) } }

/-- Result lines of a collective (spec R274, R275). -/
def State.homeCollOut (s : State) (t : Txn) : Home :=
  match s.collOf t with
  | none => .quiet s.lateAnswer
  | some (x, v) =>
    match s.fab.cmds.find? fun c => c.ctx = 8192 + x && (match c.kind with
        | .coll _ k => k = v.k
        | .store _ _ _ _ | .lines _ _ _ _ | .atom _ _ _ _ _ _ | .req _ _ | .drain _ | .post _ _ _ _ _ => false) with
    | none => .quiet s.lateAnswer
    | some c =>
      let i := nfld t.aux 12 32
      let n := t.units.length
      let total := s.collLines v.desc
      if total < i + n then .quiet s
      else
        let at_ := (collRva v.desc + 64 * i) % 2 ^ 64
        let w := s.tried c.pasid at_ (64 * n) .write
        match s.translate c.pasid at_ (64 * n) .write with
        | .error .frozen => .stall w
        | .error (.pageIn code va) => .stall (w.pageInEvent c.part c.pasid va code)
        | .error (.mem code va) => .quiet ((w.nodeSeen c.part c.pasid va code).collFail (c.failed (1, code)))
        | .error (.parcel _ _) => .quiet (s.collFail (c.failed (4, 3)))
        | .ok (segs, s1) =>
          if t.units.any fun u => !u.ok then .quiet (s1.collFail (c.failed (2, 0)))
          else
            let s2 : State := { s1 with mem := (s1.mem.scatter segs (unitsVal t.units)).1 }
            let got := v.got ++ (rangeFrom i n).filter fun j => !(v.got.contains j)
            .quiet (s2.setColl x { v with got := got })

/-- The first packet of a tag that stands on a link. -/
def State.placedOf (s : State) (tag : Nat) : Option Nat :=
  match s.fab.outs.find? fun o => o.tag = tag with
  | none => none
  | some o => o.pkts.findIdx? fun p => match p.st with
      | .placed _ => true
      | .held | .full | .waits => false

/-- An answer reaches the origin: it answers the oldest packet of its tag, or comes late (spec R310, R361). -/
def State.homeAnswer (s : State) (t : Txn) (status mcode : Nat) (old : Option W64) : Home :=
  match s.placedOf t.tag with
  | none => .quiet s.lateAnswer
  | some i => .quiet (s.pktDone t.tag i status mcode old)

/-! ### The events -/

/-- `WRITE` (spec R264, R266, R310). -/
def execWrite (t : Txn) (s : State) : Host.Outcome State Fault Refusal :=
  .next (s.receive t 1 fun s0 =>
    if t.units = [] || t.va % 64 ≠ 0 then .done s0 1 0 0
    else s0.homeWrite t (64 * t.units.length) (unitsVal t.units) t.units.length)

/-- `WRITE_S` (spec R264, R266, R310). -/
def execWriteS (t : Txn) (s : State) : Host.Outcome State Fault Refusal :=
  .next (s.receive t 2 fun s0 =>
    if t.units ≠ [] || 8 ≤ t.typ then .done s0 1 0 0
    else s0.homeWrite t (tyW t.typ / 8) (t.opnd0 % 2 ^ tyW t.typ) t.opnd1)

/-- `ATOMIC` (spec R214, R269, R310). -/
def execAtomic (t : Txn) (s : State) : Host.Outcome State Fault Refusal :=
  .next (s.receive t 3 fun s0 => if t.units ≠ [] then .done s0 1 0 0 else s0.homeAtomic t t.fn)

/-- `FADD_C`: at the home it adds as `ATOMIC` does (spec R270, R310). -/
def execFaddC (t : Txn) (s : State) : Host.Outcome State Fault Refusal :=
  .next (s.receive t 4 fun s0 =>
    if t.units ≠ [] || 16 ≤ t.typ then .done s0 1 0 0 else s0.homeAtomic t 0)

/-- `BANK` (spec R215, R216, R267, R310). -/
def execBank (t : Txn) (s : State) : Host.Outcome State Fault Refusal := .next (s.receive t 5 fun s0 => s0.homeBank t)

/-- `REQ` (spec R271, R272, R310). -/
def execReq (t : Txn) (s : State) : Host.Outcome State Fault Refusal := .next (s.receive t 6 fun s0 => s0.homeReq t)

/-- `COLL_IN`: a device reduces nothing, so there is no switch reduction on the path (spec R309, R310). -/
def execCollIn (t : Txn) (s : State) : Host.Outcome State Fault Refusal := .next (s.receive t 7 fun s0 => .done s0 0x21 0 0)

/-- `COLL_OUT` (spec R274, R275, R310). -/
def execCollOut (t : Txn) (s : State) : Host.Outcome State Fault Refusal := .next (s.receive t 8 fun s0 => s0.homeCollOut t)

/-- `PLINE` (spec R287, R289, R310). -/
def execPline (t : Txn) (s : State) : Host.Outcome State Fault Refusal := .next (s.receive t 9 fun s0 => s0.homePline t)

/-- `PCOMMIT` (spec R287, R289, R310). -/
def execPcommit (t : Txn) (s : State) : Host.Outcome State Fault Refusal := .next (s.receive t 10 fun s0 => s0.homePcommit t)

/-- `PABORT` (spec R287, R290, R310). -/
def execPabort (t : Txn) (s : State) : Host.Outcome State Fault Refusal := .next (s.receive t 11 fun s0 => s0.homePabort t)

/-- `MARK`: every earlier packet of the port has arrived, so it is acknowledged (spec R276, R310). -/
def execMark (_ : Nat) (t : Txn) (s : State) : Host.Outcome State Fault Refusal :=
  .next (s.receive t 12 fun s0 =>
    .quiet (s0.placeAnswer (({ op := 0x12, dst := t.src, src := s0.mem.devid.toNat, ctx := 0, tag := t.tag } : Hdr).txn [])))

/-- `DONE` (spec R259, R310, R361). -/
def execDone (t : Txn) (s : State) : Host.Outcome State Fault Refusal :=
  .next (s.receive t 0x10 fun s0 => s0.homeAnswer t (nfld t.opnd0 0 8) (nfld t.opnd0 8 8) none)

/-- `REPLY` (spec R214, R269, R310, R361). -/
def execReply (t : Txn) (s : State) : Host.Outcome State Fault Refusal :=
  .next (s.receive t 0x11 fun s0 => s0.homeAnswer t 0 0 (some (BitVec.ofNat 64 t.opnd0)))

/-- `MARK_ACK` for a marker of link `x`: the oldest not acknowledged completes (spec R276, R310). -/
def execMarkAck (x : Nat) (t : Txn) (s : State) : Host.Outcome State Fault Refusal :=
  .next (s.receive t 0x12 fun s0 =>
    let v := s0.ual x
    match v.sentMarks with
    | [] => .quiet s0.lateAnswer
    | n :: r => .quiet ((s0.setUal x { v with sentMarks := r }).markDone x n none))

/-- The answer of a transaction can be timed out: it is of a listed op, and each packet stands on a link (spec R361). -/
def OutTxn.timed (o : OutTxn) : Bool :=
  o.pkts.all fun p => [1, 2, 3, 4, 5, 6, 9, 10, 11].contains p.txn.op && (match p.st with
    | .placed x => decide (x < 24)
    | .held | .full | .waits => false)

/-- `ANSWER_TIMEOUT`: 4 ms after the last packet, the transaction counts as undeliverable (spec R361). -/
def execAnswerTimeout (tag : Nat) (s : State) : Host.Outcome State Fault Refusal :=
  match s.fab.outs.find? fun o => o.tag = tag with
  | none => .next s
  | some o =>
    if !o.timed then .next s
    else .next ((List.range o.pkts.length).foldl (fun t _ => t.pktDone tag 0 1 0 none) s).fabTick

/-- `PARCEL_ARM_TIMEOUT`: 1 ms without a line ends the arm (spec R280, R289). -/
def execParcelArmTimeout (x : Nat) (s : State) : Host.Outcome State Fault Refusal :=
  if (s.slot x).st = 4 || (s.slot x).st = 5 then .next (s.endArm x 3).fabTick else .next s

/-- `RESERVED_OP_TRANSACTION`: performed by no one, and answered with status 1 (spec R310). -/
def execReservedOpTransaction (t : Txn) (s : State) : Host.Outcome State Fault Refusal :=
  if t.reserved then .next ((s.unqueue t).placeAnswer (s.doneTxn t 1 0 0)).fabTick else .next s

end Sys2Proof.Machine
end

