-- ==== Sys2Proof/Machine/FabricOps.lean ====
section
/-! DEFINITION. The fabric instructions of a strand: remote stores and atomics, request records, barriers, collectives, drain
markers and holds (spec R259 to R277). -/

namespace Sys2Proof.Machine

/-! ### Shared parts -/

/-- The fabric context of a form belongs to the strand's partition (spec R259). -/
def Op.fabCtx (x : Nat) : Op Unit := do
  let own ← Op.see fun s => bbit (s.part s.view.id.part).fab x
  Op.raiseIf (!own) (illegalField 48 6 0)

/-- Commands of a fabric context not complete. -/
def State.fabCount (s : State) (x : Nat) : Nat := (s.fab.cmds.filter fun c => c.ctx = 8192 + x).length

/-- A command takes its number and its place in both queues (spec R217, R259, R261). Answers the number. -/
def Op.fabIssue (x : Nat) (rel : Bool) (kind : FabKind) : Op W64 := do
  let n ← Op.see fun s => s.fabCount x
  Op.stallIf (decide (64 ≤ n))
  let gate ← Op.enqueue .both .cmd none false 3 false
  fun s =>
    let (seq, s1) := s.takeSeq (8192 + x)
    let c : FabCmd :=
      { ctx := 8192 + x, seq := seq, sid := s.cur, gate := gate, part := s.view.id.part, node := s.view.id.launch.toNat, pasid := s.view.id.pasid.toNat,
        rel := rel, kind := kind }
    .ok (BitVec.ofNat 64 seq, { s1 with fab := { s1.fab with cmds := s1.fab.cmds ++ [c] } })

/-- A barrier VA is a multiple of 64 with the home of the target (spec R264). -/
def Op.barOk (lo : Nat) (target bar : W64) : Op Unit :=
  Op.raiseIf (bar.toNat % 64 ≠ 0 || homeOf bar.toNat ≠ homeOf target.toNat) (illegalField lo 6 bar)

/-- A local VA that is a multiple of `n`, or `ILLEGAL_FIELD` (spec R264, R269, R271). -/
def Op.localAt (lo n : Nat) (va : W64) : Op Unit := do
  let here ← Op.see fun s => s.isLocal va.toNat
  Op.raiseIf (!here || va.toNat % n ≠ 0) (illegalField lo 6 va)

/-- The context field of a fabric form. -/
def fabX (f : LForm) : Nat := bfld f.mod 16 6

/-! ### Stores -/

/-- `FST` (spec R264, R266). -/
def execFst (f : LForm) (s : State) : Host.Outcome State Fault Refusal :=
  runOp (do
    let d ← Op.readS f.d 16
    let (a, b) ← Op.readAB f.a f.b
    Op.hint f.ru f.pb [(false, f.d), (false, f.a), (false, f.b)]
    Op.fabCtx (fabX f)
    if f.b = 60 then pure () else Op.barOk 4 a b
    let n ← Op.fabIssue (fabX f) (bbit f.mod 10) (.store a (bfld f.mod 11 5) d b)
    Op.onMe fun t => { t with files := { t.files with lx := n, lxWait := none } }) s

/-- `FSTV` (spec R264, R266). -/
def execFstv (f : LForm) (s : State) : Host.Outcome State Fault Refusal :=
  runOp (do
    let (a, b) ← Op.readAB f.a f.b
    let c ← Op.readS f.c 54
    Op.hint f.ru f.pb [(false, f.a), (false, f.b), (false, f.c)]
    Op.fabCtx (fabX f)
    Op.localAt 10 64 a
    Op.raiseIf (b.toNat % 64 ≠ 0) (illegalField 4 6 b)
    if f.c = 60 then pure () else Op.barOk 54 b c
    let n ← Op.fabIssue (fabX f) (bbit f.mod 15) (.lines a b c (bfld f.mod 0 15 + 1))
    Op.writeX f.d 16 n) s

/-! ### Atomics -/

/-- A remote atomic (spec R269, R270). -/
def Op.fatom (f : LForm) (fn : Nat) (comb : Bool) : Op Unit := do
  let typ := bfld f.mod 11 5
  let (a, b) ← Op.readAB f.a f.b
  let c ← Op.readS f.c 54
  Op.hint f.ru f.pb [(false, f.a), (false, f.b), (false, f.c)]
  Op.fabCtx (fabX f)
  Op.raiseIf (a.toNat % (tyW typ / 8) ≠ 0) (illegalField 10 6 a)
  if f.c = 60 then pure () else Op.localAt 54 8 c
  let n ← Op.fabIssue (fabX f) (bbit f.mod 10) (.atom fn typ a b (if f.c = 60 then none else some c) comb)
  Op.writeX f.d 16 n

/-- `FATOM` (spec R269). -/
def execFatom (f : LForm) (s : State) : Host.Outcome State Fault Refusal := runOp (Op.fatom f (bfld f.mod 7 3) false) s

/-- `FFADD` (spec R270). -/
def execFfadd (f : LForm) (s : State) : Host.Outcome State Fault Refusal := runOp (Op.fatom f 0 true) s

/-! ### Request records -/

/-- `FREQ` (spec R271). -/
def execFreq (f : LForm) (s : State) : Host.Outcome State Fault Refusal :=
  runOp (do
    let (a, b) ← Op.readAB f.a f.b
    Op.hint f.ru f.pb [(false, f.a), (false, f.b)]
    Op.fabCtx (fabX f)
    Op.localAt 10 64 a
    Op.raiseIf (bfld b 22 42 ≠ 0 || bfld b 11 5 ≠ 0) (illegalField 4 6 b)
    let n ← Op.fabIssue (fabX f) false (.req a b)
    Op.writeX f.d 16 n) s

/-! ### Barriers -/

/-- A barrier command on the object at a: `op` with the value b (spec R267, R268). -/
def Op.barrier (op : Nat) (f : LForm) : Op Unit := do
  let (a, b) ← Op.readAB f.a f.b
  Op.hint f.ru f.pb [(false, f.a), (false, f.b)]
  Op.bank a 10 op 7 false (b.setWidth 512) 0 0 none

/-- `FBAR`: a bank-side command at the object line (spec R267). -/
def execFbar (f : LForm) (s : State) : Host.Outcome State Fault Refusal := runOp (Op.barrier 0x22 f) s

/-- `FBAR.add` (spec R268). -/
def execFbarAdd (f : LForm) (s : State) : Host.Outcome State Fault Refusal := runOp (Op.barrier 0x23 f) s

/-- The object line shows arrived at or above expected (spec R268). -/
def barMet (v : Nat) : Bool := decide (nfld v 0 64 ≤ nfld v 64 64)

/-- `FBWAIT` (spec R268): the read waits until the strand's earlier accesses have performed, as it stands in both queues. -/
def execFbwait (f : LForm) (s : State) : Host.Outcome State Fault Refusal :=
  runOp (do
    let a ← Op.readS f.a 10
    Op.hint f.ru f.pb [(false, f.a)]
    Op.aligned a 64 10
    let here ← Op.see fun s => s.isLocal a.toNat
    Op.raiseIf (!here) (memTrap 0x04 a.toNat 0 0 0)
    Op.earlier fun _ => true
    let r ← Op.loadNow a 64
    match r with
    | .error l => Op.integrity l
    | .ok v => do
      Op.waitFor 2 0 a 4 (barMet v)
      Op.mark) s

/-! ### Collectives -/

/-- A type code that R91 lists. -/
def typeListed (t : Nat) : Bool := decide (t ≤ 8) || (decide (16 ≤ t) && decide (t ≤ 24))

/-- A collective descriptor keeps the limits of R273 and R274, for the members of its group. -/
def State.collOk (s : State) (d : Line) : Bool :=
  let p := (s.members (collGroup d)).length
  let gather := collKind d = 2
  bfld d 0 8 = 1 && bfld d 21 11 = 0 && bfld d 44 164 = 0 && bfld d 384 128 = 0
    && decide (collKind d ≤ 2) && (gather || decide (collRed d ≤ 2))
    && (if gather then typeListed (collType d) else [2, 3, 6, 7, 16, 17, 18, 19].contains (collType d))
    && collCl d ≠ 0 && collN d ≠ 0
    && s.isLocal (collSva d) && collSva d % 64 = 0 && s.isLocal (collRva d) && collRva d % 64 = 0
    && ((s.members (collGroup d)).any fun m => m.1 = s.mem.devid.toNat)
    && (collKind d = 0 || collN d % p = 0)
    && collSend d p % 512 = 0 && collRecv d p % 512 = 0
    && decide (ceilDiv (collRecv d p / 512) (collCl d) ≤ 65536)

/-- `FCOLL` (spec R273 to R275). -/
def execFcoll (f : LForm) (s : State) : Host.Outcome State Fault Refusal :=
  runOp (do
    let x := fabX f
    let a ← Op.readS f.a 10
    Op.hint f.ru f.pb [(false, f.a)]
    Op.fabCtx x
    let busy ← Op.see fun s => (s.coll x).busy
    Op.stallIf busy
    let r ← Op.loadNow (lineVa a) 64
    match r with
    | .error l => Op.integrity l
    | .ok v => do
      let d : Line := BitVec.ofNat 512 v
      let ok ← Op.see fun s => s.collOk d
      Op.raiseIf (!ok) (illegalField 10 6 a)
      let k ← Op.see fun s => SMap.get 0 s.fab.ords (collGroup d) + 1
      let n ← Op.fabIssue x false (.coll d k)
      Op.change fun s =>
        let s1 := s.setColl x { desc := d, k := k, busy := true }
        { s1 with fab := { s1.fab with ords := SMap.set 0 s1.fab.ords (collGroup d) k } }
      Op.writeX f.d 16 n) s

/-- The wait of `FCWAIT` is over: the context never ran a collective, its last one completed, or the chunk is done
(spec R275). -/
def State.chunkMet (s : State) (x j : Nat) : Bool :=
  let v := s.coll x
  v.desc = 0 || !v.busy || s.chunkDone v j

/-- `FCWAIT` (spec R275). -/
def execFcwait (f : LForm) (s : State) : Host.Outcome State Fault Refusal :=
  runOp (do
    let x := fabX f
    let a ← Op.readS f.a 10
    Op.hint f.ru f.pb [(false, f.a)]
    Op.fabCtx x
    let past ← Op.see fun s =>
      let v := s.coll x
      v.desc ≠ 0 && decide (ceilDiv (s.collLines v.desc) (collCl v.desc) ≤ a.toNat)
    Op.raiseIf past (illegalField 10 6 a)
    let met ← Op.see fun s => s.chunkMet x a.toNat
    Op.waitFor 3 (8192 + x) a 5 met
    Op.mark) s

/-! ### Drain markers and holds -/

/-- The links a mask names. -/
def maskLinks (m : Nat) : List Nat := (List.range 24).filter fun x => m.testBit x

/-- A link is assigned to a partition (spec R338). -/
def State.ownsLink (s : State) (p x : Nat) : Bool := if x < 16 then bbit (s.part p).ual x else bbit (s.part p).spn (x - 16)

/-- `FDRAIN` (spec R276). -/
def execFdrain (f : LForm) (s : State) : Host.Outcome State Fault Refusal :=
  runOp (do
    let a ← Op.readS f.a 10
    Op.hint f.ru f.pb [(false, f.a)]
    Op.fabCtx (fabX f)
    let ls := maskLinks a.toNat
    let own ← Op.see fun s => ls.all (s.ownsLink s.view.id.part)
    Op.raiseIf (bfld a 24 40 ≠ 0 || a = 0 || !own) (illegalField 10 6 a)
    let n ← Op.fabIssue (fabX f) false (.drain (ls.map fun x => (x, 0)))
    Op.writeX f.d 16 n) s

/-- The range of devices of `FHOLD` and `FRELEASE`: the form's checks, then a place in both queues at which it takes effect
(spec R277). -/
def Op.holdRange (f : LForm) (mode : Option Bool) : Op Unit := do
  let (a, b) ← Op.readAB f.a f.b
  Op.hint f.ru f.pb [(false, f.a), (false, f.b)]
  Op.raiseIf (b = 0 || bfld b 12 52 ≠ 0) (illegalField 4 6 b)
  Op.raiseIf (bfld a 11 53 ≠ 0 || decide (2048 < a.toNat + b.toNat)) (illegalField 10 6 a)
  let _ ← Op.enqueue .both (.hold a.toNat b.toNat mode) none false 3 false

/-- `FHOLD` (spec R277). -/
def execFhold (f : LForm) (s : State) : Host.Outcome State Fault Refusal :=
  runOp (Op.holdRange f (some (bbit f.mod 21))) s

/-- `FRELEASE` (spec R277). -/
def execFrelease (f : LForm) (s : State) : Host.Outcome State Fault Refusal := runOp (Op.holdRange f none) s

end Sys2Proof.Machine
end

