-- ==== Sys2Proof/Machine/Parcel.lean ====
section
/-! DEFINITION. The parcel instructions (spec R278 to R293). -/

namespace Sys2Proof.Machine

/-! ### Shared parts -/

/-- A slot lies in the range of the strand's partition (spec R278). -/
def State.slotOwn (s : State) (p x : Nat) : Bool :=
  let v := s.part p
  decide (v.pcLo ≤ x) && decide (x < v.pcLo + v.pcN)

/-- The check of a handle (spec R282). Answers its slot. -/
def Op.checkHandle (h : W64) : Op Nat := do
  let x := bfld h 0 12
  Op.raiseIf (bfld h 12 4 ≠ 0) (illegalField 10 6 h)
  let own ← Op.see fun s => s.slotOwn s.view.id.part x
  let v ← Op.see fun s => s.slot x
  let stale := !own || bfld h 16 16 ≠ v.gen.toNat || v.st = 0 || v.st = 4 || v.st = 5
  Op.raiseIf stale (parcelTrap 0x01 (bfld h 0 32) 0 0)
  Op.raiseIf (v.st = 2 || v.st = 3) (parcelTrap 0x02 (bfld h 0 32) 0 0)
  pure x

/-- The local bytes of a queued access. -/
def Act.segs : Act → List Seg
  | .load l _ _ | .store l _ _ => l
  | .atom _ _ g _ _ | .bank _ _ _ g _ _ _ => [g]
  | .sload _ _ _ _ | .sstore _ _ _ | .ratom _ _ _ _ _ | .rbank _ _ _ _ _ _ _ | .mark | .spalloc _ _ | .spfree _ _
  | .hold _ _ _ | .cmd | .trig | .exit => []

/-- A queued access touches a run of VA bytes. -/
def Access.touches (a : Access) (base n : Nat) : Bool :=
  a.act.segs.any fun g => decide (g.va < base + n) && decide (base < g.va + g.len)

/-- An access of another strand of the PASID has still to perform in a run of VA bytes (spec R284). -/
def State.extentBusy (s : State) (pasid base n : Nat) : Bool :=
  s.strands.any fun e => e.1 ≠ s.cur && e.2.id.pasid.toNat = pasid && e.2.q.accs.any fun a => a.touches base n

/-- Waits until the accesses that come before in a run of VA bytes have performed (spec R284, R289). -/
def Op.extentQuiet (pasid base n : Nat) : Op Unit := do
  let busy ← Op.see fun s => s.extentBusy pasid base n
  Op.stallIf busy
  Op.earlier fun a => a.touches base n

/-- The bytes are fit for an extent or an armed region (spec R284, R289). -/
def State.extentOk (s : State) (pasid : Nat) (a b : W64) : Bool :=
  s.isLocal a.toNat && a.toNat % 64 = 0 && b.toNat % 64 = 0 && decide (64 ≤ b.toNat) && decide (b.toNat ≤ 2 ^ 26)
    && (s.parcelAt pasid a.toNat b.toNat).isNone

/-- The lowest FREE slot of a partition's range (spec R284). -/
def State.freeParcel (s : State) (p : Nat) : Option Nat :=
  let v := s.part p
  (rangeFrom v.pcLo v.pcN).find? fun x => (s.slot x).st = 0

/-- A parcel access of another strand that passed its check on a slot has still to perform (spec R291). -/
def State.slotUsed (s : State) (x : Nat) : Bool :=
  s.strands.any fun e => e.1 ≠ s.cur && e.2.q.accs.any fun a => a.slot = some x

/-- Waits until the parcel accesses that passed their check on a slot have performed (spec R285, R291). -/
def Op.slotQuiet (x : Nat) : Op Unit := do
  let busy ← Op.see fun s => s.slotUsed x
  Op.stallIf busy
  Op.earlier fun a => a.slot = some x

/-- The access just entered passed its check on a slot (spec R282, R291). -/
def Op.throughSlot (x i : Nat) : Op Unit :=
  Op.onMe fun t => { t with q := { t.q with accs := t.q.accs.map fun a => if a.id = i then { a with slot := some x } else a } }

/-! ### Opening and freeing -/

/-- `PALLOC` (spec R279, R284). -/
def execPalloc (f : LForm) (s : State) : Host.Outcome State Fault Refusal :=
  runOp (do
    let (a, b) ← Op.readAB f.a f.b
    Op.hint f.ru f.pb [(false, f.a), (false, f.b)]
    let pasid ← Op.look fun t => t.id.pasid.toNat
    let part ← Op.look fun t => t.id.part
    let ok ← Op.see fun s => s.extentOk pasid a b
    Op.raiseIf (!ok) (parcelTrap 0x06 0 0 a.toNat)
    let slot ← Op.see fun s => s.freeParcel part
    match slot with
    | none => Op.raise (parcelTrap 0x05 0 0 0)
    | some x => do
      Op.extentQuiet pasid a.toNat b.toNat
      let v ← Op.see fun s => { (s.slot x).advance with st := 1, pasid := pasid, base := a, size := b.toNat, part := part }
      Op.change fun s => s.setSlot x v
      Op.mark
      Op.writeX f.d 16 ((v.handle x).setWidth 64)) s

/-- `PFREE` (spec R285). -/
def execPfree (f : LForm) (s : State) : Host.Outcome State Fault Refusal :=
  runOp (do
    let a ← Op.readS f.a 10
    Op.hint f.ru f.pb [(false, f.a)]
    let x ← Op.checkHandle a
    Op.slotQuiet x
    Op.change fun s => s.setSlot x (s.slot x).free
    Op.mark) s

/-! ### Accesses -/

/-- The kind of a parcel access: 0 plain, 1 `.ref`, 2 `.v` (spec R283). -/
def plKind (f : LForm) : Nat := bfld f.mod 15 2

/-- The type of a parcel access. -/
def plType (f : LForm) : Nat := bfld f.mod 17 5

/-- The bytes of a parcel access (spec R286). -/
def plSize (f : LForm) : Nat := if plKind f = 2 then 256 else if plKind f = 1 then 4 else tyW (plType f) / 8

/-- The checks of a parcel access: its slot, what that holds, and its offset (spec R286). -/
def Op.parcelAddr (f : LForm) (a b : W64) : Op (Nat × Slot × Nat) := do
  let x ← Op.checkHandle a
  let v ← Op.see fun s => s.slot x
  let off := (b + sext64 15 (bfld f.mod 0 15)).toNat
  Op.raiseIf (decide (v.size < off + plSize f)) (parcelTrap 0x04 (bfld a 0 32) off ((v.base.toNat + off) % 2 ^ 64))
  pure (x, v, off)

/-- A reference is an offset inside the extent, or null (spec R286). -/
def refOk (size v : Nat) : Bool := decide (v < size) || v = 0xFFFFFFFF

/-- A place in one queue. -/
def Op.mark1 (q : QKind) : Op Unit := do
  let _ ← Op.enqueue q .mark none false 3 false

/-- `PLD` (spec R286): `.ref` checks the value before it lands, so issue waits for its read. -/
def execPld (f : LForm) (s : State) : Host.Outcome State Fault Refusal :=
  runOp (do
    let (a, b) ← Op.readAB f.a f.b
    Op.hint f.ru f.pb [(false, f.a), (false, f.b)]
    let l ← if plKind f = 2 then Op.vDst f.d 16 else Op.sDst f.d 16
    let dst ← Op.dst l
    let (x, v, off) ← Op.parcelAddr f a b
    let va := (v.base.toNat + off) % 2 ^ 64
    if plKind f = 1 then do
      Op.loadsDone
      let (segs, _) ← Op.translPieces .read 0 (pieces va 4)
      let m ← Op.see fun s => s.mem
      match m.badVa segs with
      | some bad => Op.integrity bad
      | none => do
        let r := m.gather segs
        Op.raiseIf (!(refOk v.size r)) (parcelTrap 0x04 (bfld a 0 32) r va)
        Op.mark1 .load
        Op.writeX f.d 16 (BitVec.ofNat 64 r)
    else do
      let typ := plType f
      let (segs, _) ← Op.translPieces .read 0 (pieces va (plSize f))
      let w := if plKind f = 2 then 0 else tyW typ
      let i ← Op.enqueue .load (.load segs (tySigned typ) w) dst false 3 false
      Op.throughSlot x i
      Op.resultLx i) s

/-- `PST` (spec R286). -/
def execPst (f : LForm) (s : State) : Host.Outcome State Fault Refusal :=
  runOp (do
    let data ← Op.stData (plKind f = 2) f.d
    let (a, b) ← Op.readAB f.a f.b
    Op.hint f.ru f.pb [(plKind f = 2, f.d), (false, f.a), (false, f.b)]
    let (x, v, off) ← Op.parcelAddr f a b
    let va := (v.base.toNat + off) % 2 ^ 64
    let r := bfld data 0 64
    Op.raiseIf (plKind f = 1 && !(refOk v.size r)) (parcelTrap 0x04 (bfld a 0 32) r va)
    let (segs, _) ← Op.translPieces .write 1 (pieces va (plSize f))
    let i ← Op.enqueue .store (.store segs [] data) none false 3 false
    Op.throughSlot x i) s

/-! ### Transfers -/

/-- `POST` (spec R287, R291). -/
def execPost (f : LForm) (s : State) : Host.Outcome State Fault Refusal :=
  runOp (do
    let (a, b) ← Op.readAB f.a f.b
    let c ← Op.readS f.c 54
    Op.hint f.ru f.pb [(false, f.a), (false, f.b), (false, f.c)]
    Op.fabCtx (fabX f)
    let x ← Op.checkHandle a
    Op.raiseIf (bfld b 28 36 ≠ 0 || bfld b 11 5 ≠ 0) (illegalField 4 6 b)
    Op.raiseIf (f.c ≠ 60 && c.toNat % 8 ≠ 0) (illegalField 54 6 c)
    Op.slotQuiet x
    let v ← Op.see fun s => s.slot x
    let n ← Op.fabIssue (fabX f) false (.post (v.handle x) v.base v.size b (if f.c = 60 then none else some c))
    Op.change fun s => s.slotSt x 2
    Op.writeX f.d 16 n) s

/-- The receive context of a form lies in the partition's range (spec R283, R289). Answers the slot. -/
def Op.recvSlot (f : LForm) : Op Nat := do
  let x := bfld f.mod 0 12
  let own ← Op.see fun s => s.slotOwn s.view.id.part x
  Op.raiseIf (!own) (illegalField 32 16 0)
  pure x

/-- The next number of a context (spec R217). -/
def Op.takeNumber (c : Nat) : Op Nat := fun s => .ok (s.takeSeq c)

/-- `PRECV.arm` (spec R289). -/
def execPrecvArm (f : LForm) (s : State) : Host.Outcome State Fault Refusal :=
  runOp (do
    let (a, b) ← Op.readAB f.a f.b
    Op.hint f.ru f.pb [(false, f.a), (false, f.b)]
    let x ← Op.recvSlot f
    let pasid ← Op.look fun t => t.id.pasid.toNat
    let part ← Op.look fun t => t.id.part
    let ok ← Op.see fun s => s.extentOk pasid a b
    Op.raiseIf (!ok) (parcelTrap 0x06 x 0 a.toNat)
    let st ← Op.see fun s => (s.slot x).st
    Op.raiseIf (st ≠ 0) (parcelTrap 0x07 x 0 0)
    Op.extentQuiet pasid a.toNat b.toNat
    let n ← Op.takeNumber (recvCtx x)
    let node ← Op.look fun t => t.id.launch.toNat
    Op.change fun s =>
      s.setSlot x { s.slot x with st := 4, pasid := pasid, base := a, size := b.toNat, part := part, arm := n, armer := some s.cur
                                  armNode := node, peer := none, lines := 0 }
    Op.writeX f.d 16 (BitVec.ofNat 64 n)) s

/-- `PRECV` (spec R289): the handle the arrival installed, 0 for an arm that ended without one. -/
def execPrecv (f : LForm) (s : State) : Host.Outcome State Fault Refusal :=
  runOp (do
    let a ← Op.readS f.a 10
    Op.hint f.ru f.pb [(false, f.a)]
    let x ← Op.recvSlot f
    let done ← Op.see fun s => decide (a.toNat ≤ (s.ctx (recvCtx x)).counter.toNat)
    Op.waitFor 1 (recvCtx x) a 6 done
    let h ← Op.see fun s => (SMap.find (s.slot x).handles a.toNat).getD 0
    Op.mark
    Op.writeX f.d 16 (h.setWidth 64)) s

/-- `PSTAT` (spec R292). -/
def execPstat (f : LForm) (s : State) : Host.Outcome State Fault Refusal :=
  runOp (do
    let a ← Op.readS f.a 10
    Op.hint f.ru f.pb [(false, f.a)]
    let x := bfld a 0 12
    Op.raiseIf (bfld a 12 4 ≠ 0) (illegalField 10 6 a)
    let own ← Op.see fun s => s.slotOwn s.view.id.part x
    Op.raiseIf (!own) (parcelTrap 0x01 (bfld a 0 32) 0 0)
    let v ← Op.see fun s => s.slot x
    let hit : Bool := bfld a 16 16 = v.gen.toNat
    let sel := bfld f.mod 20 2
    Op.writeX f.d 16
      (if sel = 0 then
        BitVec.ofNat 64 (v.last.toNat + v.st * 2 ^ 32 + b2n hit * 2 ^ 35 + x * 2 ^ 36 + v.gen.toNat * 2 ^ 48)
      else if !hit then 0
      else if sel = 1 then v.base
      else BitVec.ofNat 64 v.size)) s

end Sys2Proof.Machine
end

