-- ==== Sys2Proof/Machine/Perform.lean ====
section
/-! DEFINITION. The performing of queued accesses (spec R147, R191, R193, R195 to R199, R207, R210, R214 to R216, R277), and the writes
that resume when their page is resident (spec R20, R29, R30, R133, R360). -/

namespace Sys2Proof.Machine

/-! ### Landing -/

/-- The result of an access lands: its place, and `lm` or `lx` while that awaits it (spec R48, R54, R83). -/
def Strand.land (t : Strand) (a : Access) (v : Nat) : Strand :=
  let t1 := match a.dst with
    | some d => t.putLocSkip d.loc v d.skip
    | none => t
  let f1 := if a.toLm && t1.files.lmWait = some a.id then
      { t1.files with lm := BitVec.ofNat 2048 v, lmWait := none } else t1.files
  let f2 := if a.toLx && f1.lxWait = some a.id then { f1 with lx := BitVec.ofNat 64 v, lxWait := none } else f1
  { t1 with files := f2 }

/-- An access that returns nothing ends: nothing awaits it any more. -/
def Strand.unland (t : Strand) (a : Access) : Strand :=
  { t with files :=
      { t.files with lmWait := if t.files.lmWait = some a.id then none else t.files.lmWait
                     lxWait := if t.files.lxWait = some a.id then none else t.files.lxWait } }

/-- An access leaves the queues. -/
def Strand.dropAcc (t : Strand) (i : Nat) : Strand := { t with q := { t.q with accs := t.q.accs.filter fun a => a.id ≠ i } }

/-- A strand that ended goes with its last access (spec R128). -/
def State.reap (s : State) (sid : Nat) : State :=
  match s.strand? sid with
  | none => s
  | some t => if t.id.state = 7 && !t.place.resident && t.q.accs.isEmpty then s.dropStrand sid else s

/-- A result of access `a` of strand `sid` lands in the machine, over the bytes of a V result in flight too (spec R53; log entry 86). -/
def State.landAt (s : State) (sid : Nat) (a : Access) (v : Nat) : State :=
  let s1 := s.onStrand sid fun t => (t.land a v).dropAcc a.id
  match a.dst with
  | some d => s1.dropLatchAt sid d.loc
  | none => s1

/-- An access performs without a result. -/
def State.landNone (s : State) (sid : Nat) (a : Access) : State := s.onStrand sid fun t => (t.unland a).dropAcc a.id

/-- A read of an access met a line that fails its check: the strand stops with `INTEGRITY`, its destination not written
(spec R124, R193). -/
def State.landBad (s : State) (sid : Nat) (a : Access) (va : Nat) : State :=
  let s1 := s.landNone sid a
  match s1.strand? sid with
  | none => s1
  | some t =>
    if t.id.state = 7 then s1
    else
      let i : TrapInfo := { cls := 0x09, code := 0, va := BitVec.ofNat 64 va, wi := a.wi, word := a.word }
      s1.setStrand sid { t with sch := { t.sch with stop := some (.trap i a.pos) }, q := { t.q with waitf := none } }

/-! ### When an access may perform -/

/-- The homes an access sends to, one for each packet. -/
def Act.homes : Act → List Nat
  | .store _ rem data => (rsegPkts { op := 2, dst := 0 } rem data.toNat).map Txn.dst
  | .ratom _ _ va _ _ => [homeOf va.toNat]
  | .rbank _ _ _ va _ _ _ => [homeOf va.toNat]
  | .load _ _ _ | .sload _ _ _ _ | .sstore _ _ _ | .atom _ _ _ _ _ | .bank _ _ _ _ _ _ _ | .mark | .spalloc _ _
  | .spfree _ _ | .hold _ _ _ | .cmd | .trig | .exit => []

/-- The access waits for the acceptance of the strand's earlier remote writes (spec R207, R210, R261). -/
def Access.waitsHeld (a : Access) : Bool :=
  (a.rel && a.q ≠ .load) || (match a.act with
    | .cmd | .trig | .exit => true
    | .load _ _ _ | .store _ _ _ | .sload _ _ _ _ | .sstore _ _ _ | .atom _ _ _ _ _ | .ratom _ _ _ _ _
    | .bank _ _ _ _ _ _ _ | .rbank _ _ _ _ _ _ _ | .mark | .spalloc _ _ | .spfree _ _ | .hold _ _ _ => false)

/-- A queued access may perform now (spec R189, R195, R197, R207, R277, R333). -/
def State.accReady (s : State) (sid : Nat) (t : Strand) (before : List Access) (a : Access) : Bool :=
  (mayPerform a.q before || a.passes before)
    && !(a.act.segs.any fun g => s.mem.paBusy g.pa g.len)
    && !(s.holdFull t.id.part a.act.homes)
    && !(a.waitsHeld && (s.heldIds sid).any fun i => decide (i < a.id))
    && !(a.rel && a.q ≠ .load && a.scope = 4 && (s.remoteIds sid).any fun i => decide (i < a.id))

/-! ### What an access does -/

/-- The header of a strand's own remote access (spec R310). -/
def State.accHdr (s : State) (t : Strand) (a : Access) (tag op va : Nat) : Hdr :=
  { op := op, dst := homeOf va, src := s.mem.devid.toNat, rel := a.rel && a.scope = 4, ctx := 0x3F, tag := tag,
    pasid := t.id.pasid.toNat, va := va }

/-- Sends the packets of a strand's own remote access. -/
def State.accSend (s : State) (sid : Nat) (t : Strand) (a : Access) (f : Nat → List Txn) : State :=
  let (tag, s1) := s.takeTag
  s1.sendPkts (.access sid a.id) t.id.part tag (f tag)

/-- A loaded number as its destination receives it: a scalar of `w` bits, or a vector where `w` is 0 (spec R203). -/
def loaded (signed : Bool) (w v : Nat) : Nat := if w = 0 then v else (ext64 signed w v).toNat

/-- The packet of a bank-side command (spec R310). -/
def bankTxn (h : Hdr) (op typ : Nat) (sat : Bool) (v x y : Line) : Txn :=
  let u (l : Line) : CLine := { data := l, ok := true }
  if op < 6 then ({ h with typ := typ, fn := op + 8 * b2n sat } : Hdr).txn [u v]
  else if op = 0x20 then ({ h with typ := typ, fn := op } : Hdr).txn [u x, u y]
  else if op = 0x21 then
    ({ h with typ := typ, fn := op, opnd0 := if typ = 16 then bfld x 0 64 else bfld x 0 32 } : Hdr).txn [u v]
  else ({ h with typ := typ, fn := op, opnd0 := bfld v 0 64 } : Hdr).txn []

/-- Changes the words `[a, a + b)` of a strand's scratchpad (spec R147). -/
def Strand.onWords (t : Strand) (a b : Nat) (f : SWord → SWord) : Strand :=
  { t with scr := (rangeFrom (a / 8) (b / 8)).foldl (fun m w => SMap.set {} m w (f (SMap.get {} m w))) t.scr }

/-- The devices `[a, a + b)` of a partition's hold set take a mode, or leave the set (spec R277). -/
def State.holdSet (s : State) (p a b : Nat) (mode : Option Bool) : State :=
  let v := s.part p
  let s1 := s.setPart p { v with hold := (rangeFrom a b).foldl (fun m d => SMap.set none m d mode) v.hold }
  s1.holdPass

/-- An access performs (spec R147, R191, R193, R199, R214, R215, R277). -/
def State.perform (s : State) (sid : Nat) (t : Strand) (a : Access) : State :=
  match a.act with
  | .load segs signed w =>
    match s.mem.badVa segs with
    | some va => s.landBad sid a va
    | none => s.landAt sid a (loaded signed w (s.mem.gather segs))
  | .store segs rem data =>
    let (s0, bad) := s.storeSegs segs data.toNat
    let s1 := (s0.lineEvents t.id.part bad).landNone sid a
    if rem = [] then s1
    else s1.accSend sid t a fun tag => rsegPkts (s.accHdr t a tag 2 0) rem data.toNat
  | .sload off n signed w =>
    match t.spadBad off n with
    | some l => s.landBad sid a (64 * l)
    | none =>
      let ws := t.invalidWords off n
      let s1 := if ws = [] then s else s.logWords t ws
      s1.landAt sid a (loaded signed w (t.spadLogged off n))
  | .sstore off n data =>
    let (u, lost) := t.spadWrite off (toBytes n data.toNat)
    (lost.foldl (fun v l => v.spadEvent t.id.part l) (s.setStrand sid u)).landNone sid a
  | .atom op typ g b c =>
    match s.mem.badVa [g] with
    | some va => (s.lineEvents t.id.part ((linesOf g.pa g.len).filter s.mem.lineBad)).landBad sid a va
    | none =>
      let m := s.mem.gather [{ g with off := 0 }]
      let s1 := (s.storeSegs [{ g with off := 0 }] (atomNew op typ m b c).1).1
      s1.landAt sid a (atomOld typ m).toNat
  | .ratom op typ va b c =>
    (s.landNone sid a).accSend sid t a fun tag =>
      [({ s.accHdr t a tag 3 va.toNat with typ := typ, fn := op, opnd0 := b, opnd1 := c } : Hdr).txn []]
  | .bank op typ sat g v x y =>
    match s.mem.badVa [g] with
    | some va =>
      let s1 := s.lineEvents t.id.part ((linesOf g.pa g.len).filter s.mem.lineBad)
      if a.dst.isSome then s1.landBad sid a va else s1.landNone sid a
    | none =>
      let l : Line := BitVec.ofNat 512 (s.mem.gather [{ g with off := 0 }])
      let s1 := (s.storeSegs [{ g with off := 0 }] (bankNew op typ sat v x y l).toNat).1
      if a.dst.isSome then s1.landAt sid a l.toNat else s1.landNone sid a
  | .rbank op typ sat va v x y =>
    (s.landNone sid a).accSend sid t a fun tag => [bankTxn (s.accHdr t a tag 5 va.toNat) op typ sat v x y]
  | .mark => s.landNone sid a
  | .spalloc b n => (s.onStrand sid fun u => u.onWords b n fun w => { w with valid := false }).landNone sid a
  | .spfree b n =>
    (s.onStrand sid fun u => u.onWords b n fun _ => { data := 0, valid := false, freed := true }).landNone sid a
  | .hold d n mode => (s.holdSet t.id.part d n mode).landNone sid a
  | .cmd => s.landNone sid a
  | .trig => (s.landNone sid a).trigDone sid
  | .exit => (s.landNone sid a).exitDone sid

/-! ### The events -/

/-- After an access has performed the strand goes on, if it had stopped; so do all that a hold set held back (spec R56, R277). -/
def State.afterAcc (s : State) (sid : Nat) (a : Act) : State :=
  match a with
  | .hold _ _ _ => s.settleAll
  | .load _ _ _ | .store _ _ _ | .sload _ _ _ _ | .sstore _ _ _ | .atom _ _ _ _ _ | .ratom _ _ _ _ _ | .bank _ _ _ _ _ _ _
  | .rbank _ _ _ _ _ _ _ | .mark | .spalloc _ _ | .spfree _ _ | .cmd | .trig | .exit => s.settle sid

/-- `ACCESS_PERFORMED` (spec R195 to R199): a queued access that may perform does; a stopped strand goes on, and so do commands
that waited for it. -/
def execAccessPerformed (sid acc : Nat) (s : State) : Host.Outcome State Fault Refusal :=
  match s.strand? sid with
  | none => .next s
  | some t =>
    match accSplit acc t.q.accs with
    | none => .next s
    | some (before, a) =>
      if !(s.accReady sid t before a) then .next s
      else .next (((s.perform sid t a).afterAcc sid a.act).reap sid).fabTick

/-- The accesses that the bundle at hand has entered, in order. -/
def State.ownIds (s : State) : List Nat := (s.me.q.accs.filter fun a => decide (s.view.q.next ≤ a.id)).map Access.id

/-- The accesses that earlier words of the bundle at hand entered perform now, where they may (spec R83, R118, R353). -/
def State.performOwn (s : State) : State :=
  (s.ownIds.foldl (fun (u : State) i => match accSplit i u.me.q.accs with
    | none => u
    | some (before, a) => if u.accReady u.cur u.me before a then u.perform u.cur u.me a else u) s).fabTick

/-- A word that waited is written: what follows (spec R29, R30, R360). -/
def State.afterWord (s : State) (w : AfterWord) (fail : Option (Nat × Nat)) : State :=
  match w with
  | .nothing => s
  | .signal n => s.nodeDone n
  | .launch n => s.setNode n { s.node n with st := .done }
  | .cmd c q _ =>
    match s.fabCmd c q with
    | none => s
    | some x => s.fabFinish x (match x.fail, fail with
        | some e, _ => some e
        | none, e => e)
  | .status x => match fail with
    | some e => s.setRlc x { s.rlc x with failed := some ((s.rlc x).failed.getD e) }
    | none => s

/-- Word writes of one source that stay in order: the status of a block. -/
def AfterWord.ordered : AfterWord → Bool
  | .status _ => true
  | _ => false

/-- `FABRIC_WRITE_PAGE_IN_RESUME` (spec R360): the word write `idx` that waited for its page goes on. -/
def execFabricWritePageInResume (idx : Nat) (s : State) : Host.Outcome State Fault Refusal :=
  match s.words[idx]? with
  | none => .next s
  | some w =>
    if (s.words.take idx).any (fun v => v.after = w.after && w.after.ordered) then .next s
    else
    match ({ s with words := s.words.eraseIdx idx } : State).wordWrite w with
    | .stall s1 => .next (s1.wordWait w)
    | .ok s1 => .next (s1.afterWord w.after none).fabTick
    | .fail k d s1 => .next (s1.afterWord w.after (some (k, d))).fabTick

/-- `SAVE_WRITE_PAGE_IN_RESUME` (spec R20, R133): a save that waited for a page goes on. -/
def execSaveWritePageInResume (sid : Nat) (s : State) : Host.Outcome State Fault Refusal :=
  match s.strand? sid with
  | none => .next s
  | some t =>
    if t.sch.saving then
      .next ((s.setStrand sid { t with sch := { t.sch with saving := false } }).settle sid)
    else .next s

end Sys2Proof.Machine
end

