-- ==== Sys2Proof/Machine/LinkEvents.lean ====
section
/-! DEFINITION. What happens on the links: Spindle flits, replay, wavelengths and widths, port states, relock, and UALink ports
(spec R308, R311 to R325). -/

namespace Sys2Proof.Machine

/-! ### Sending -/

/-- An unsequenced flit leaves on a port: IDLE, NAK or WIDTH, with the ack (spec R311). -/
def State.bare (s : State) (p typ payload : Nat) : State :=
  let f : FlitF := { typ := typ, ack := (s.spn p).ack.toNat, src := s.mem.devid.toNat, dst := (s.spn p).partner.toNat,
                     payload := BitVec.ofNat 512 (payload % 2 ^ 16) }
  ({ s with free := s.free + 1 } : State).flitOut p (f.lane s.free).bits

/-- Flits leave again as they were sent, striped at the width in force (spec R313). -/
def State.resend (s : State) (p : Nat) (l : List Replay) : State := l.foldl (fun t r => t.flitOut p r.flit) s

/-- The flit ends a packet or stands alone. -/
def Replay.ends (r : Replay) : Bool := flitEop r.flit || flitType r.flit ≠ 1

/-- The count of flits through the last one that ends a packet. -/
def lastEnd : Nat → Nat → List Replay → Nat
  | _, best, [] => best
  | i, best, r :: t => lastEnd (i + 1) (if r.ends then i + 1 else best) t

/-- An ack covers flits of the replay buffer; those of an open packet stay for a replay of the whole packet (spec R313,
R317). -/
def Spn.ackTo (v : Spn) (a : BitVec 16) : Spn :=
  match v.buf.findIdx? fun r => r.seq = a with
  | none => v
  | some i =>
    if i < v.acked then v
    else
      let n := i + 1
      let k := lastEnd 0 0 (v.buf.take n)
      { v with buf := v.buf.drop k, acked := n - k, tries := 0 }

/-- Marker acks that wait for room leave (spec R322). -/
def State.sendMacks : Nat → State → Nat → State
  | 0, s, _ => s
  | k + 1, s, p =>
    let v := s.spn p
    if v.macks = 0 || !(v.room 1) || v.st ≠ 2 then s
    else
      let f : FlitF := { typ := 3, dst := v.partner.toNat, src := s.mem.devid.toNat }
      State.sendMacks k ((s.setSpn p { v with macks := v.macks - 1 }).spnFlits p none [f]) p

/-- A port can send again: marker acks, markers, sends and commands go on. -/
def State.linkTick (s : State) (x : Nat) : State :=
  let s1 := if x < 16 then s else s.sendMacks (s.spn (x - 16)).macks (x - 16)
  (s1.sendMarks (s1.marksOf x).length x).fabTick

/-! ### States of a port -/

/-- The active mask of a port's transmitter. -/
def State.txActive (s : State) (p : Nat) : BitVec 16 := activeOf (s.spn p).tx

/-- The active mask of a port's receiver: that of the mask it last agreed on with the far sender (spec R316). -/
def State.rxActive (s : State) (p : Nat) : BitVec 16 := activeOf (s.spn p).rxm

/-- A port leaves UP: the link-state event takes its number (spec R321). -/
def State.leaveUp (s : State) (p st : Nat) : Nat × State :=
  let (n, s1) := s.takeSeq (linkCtx (16 + p))
  let v := s1.spn p
  (n, s1.setSpn p { v with st := st, events := v.events ++ [n] })

/-- A port goes DOWN (spec R313, R316, R321, R325). -/
def State.portDown (s : State) (p : Nat) : State :=
  let old := s.txActive p
  let (n, s1) := if (s.spn p).st = 2 then s.leaveUp p 0
    else (s.linkIss (16 + p), s.setSpn p { s.spn p with st := 0 })
  ((s1.setSpn p { s1.spn p with tx := 0, far := 0, gone := 0, rxm := 0, tries := 0 }).linkEvent (16 + p) 4 0 old 0 0 0 n).fabTick

/-- A send whose flits a discarded buffer held, by the number of its packet, is reported with cause 1 (spec R321, R324). -/
def State.lostSend (s : State) (n : Nat) : State :=
  match s.fab.outs.find? fun o => o.pkts.any fun q => q.ord = n with
  | none => s
  | some o =>
    match o.pkts.findIdx? fun q => q.ord = n with
    | none => s
    | some i => s.pktDone o.tag i 1 0 none

/-- Sequence state starts fresh: the buffer is discarded with its sends and the markers not acknowledged. Answers the count of
sends discarded (spec R321). -/
def State.fresh (s : State) (p : Nat) : State :=
  let v := s.spn p
  let ends := v.buf.filter fun r => flitEop r.flit && flitType r.flit = 1
  let s1 := s.setSpn p { v with buf := [], acked := 0, seq := 0, ack := 0, rx := [], tries := 0, sentMarks := [], macks := 0,
                                lost := v.lost + ends.length }
  let s2 := (ends.filterMap Replay.send).foldl State.lostSend s1
  v.sentMarks.foldl (fun t n => (t.markLost (16 + p) n).markDone (16 + p) n (some (3, 1))) s2

/-! ### Widths -/

/-- A change of the active mask counts as a width change where the width differs (spec R320). -/
def Spn.rewidth (v : Spn) (old new : BitVec 16) : Spn :=
  if popCount 16 old.toNat = popCount 16 new.toNat then v else { v with widths := min (v.widths + 1) 0xFFFF }

/-- The mask a port's transmitter is to follow: what the far receiver carried, without the wavelengths that software disabled here or
that a failed laser feeds (spec R316, R318). -/
def Spn.target (v : Spn) : BitVec 16 := v.far &&& ~~~ v.dis &&& ~~~ v.gone

/-- The sender's mask becomes `m`, after its current packet: WIDTH leaves at the old width with the new active mask, and the sender raises
the record (spec R311, R318). A port that is neither UP nor DARKING sends nothing, so it has no mask to change. -/
def State.graceful (s : State) (p : Nat) (m : BitVec 16) : State :=
  let v := s.spn p
  let old := activeOf v.tx
  if v.st ≠ 2 && v.st ≠ 3 then s
  else if v.st = 2 && widthOf (popCount 16 m.toNat) = 0 then (s.setSpn p { v with tx := m }).portDown p
  else if widthOf (popCount 16 m.toNat) = 0 || activeOf m = old then s.setSpn p { v with tx := m }
  else
    let s1 := (s.bare p 5 (activeOf m).toNat).setSpn p (({ v with tx := m } : Spn).rewidth old (activeOf m))
    s1.linkEvent (16 + p) 2 0 old (activeOf m) 0 0 (s1.linkIss (16 + p))

/-- The receiver carries its mask to the far end's sender (spec R316). -/
def State.carryMask (s : State) (p : Nat) : State :=
  if (s.spn p).st = 2 || (s.spn p).st = 3 then s.bare p 5 (s.healthy p).toNat else s

/-- A ring changed. -/
def State.onRing (s : State) (p w : Nat) (f : Ring → Ring) : State := s.setRing (16 * p + w) (f (s.ring (16 * p + w)))

/-- The receiver's forced reduction after wavelengths went dark (spec R317, R319): the open packet is discarded, LOSS is raised, and its mask
goes to the sender, or the port DOWN with fewer than four healthy wavelengths. On a port that is not UP only the mask changes. -/
def State.forced (s : State) (p : Nat) : State :=
  let v := s.spn p
  let m := s.healthy p
  if v.st ≠ 2 then s.setSpn p { v with rxm := m }
  else
    let old := activeOf v.rxm
    let s1 := s.setSpn p (({ v with rx := [], ack := v.ack - BitVec.ofNat 16 v.rx.length, rxm := m } : Spn).rewidth old (activeOf m))
    let s2 := s1.linkEvent (16 + p) 1 0 old (activeOf m) 0 0 (s1.linkIss (16 + p))
    if widthOf (popCount 16 m.toNat) = 0 then s2.portDown p else s2.carryMask p

/-! ### Flits received -/

/-- A flit counts on a port: its CRC holds, its type is `typ`, and the port is UP or DARKING. -/
def State.hears (s : State) (p typ : Nat) (f : BitVec 640) : Bool :=
  decide (p < 8) && flitOk f && flitType f = typ && ((s.spn p).st = 2 || (s.spn p).st = 3)

/-- Takes the ack of a flit (spec R313). -/
def State.takeAck (s : State) (p : Nat) (f : BitVec 640) : State := s.setSpn p ((s.spn p).ackTo (flitAck f))

/-- A sequenced flit: accepted when it is the one expected, else discarded with a NAK (spec R313). -/
def State.sequenced (s : State) (p : Nat) (f : BitVec 640) (act : State → State) : State :=
  let s1 := s.takeAck p f
  let v := s1.spn p
  let expect := v.ack + 1
  if flitSeq f = expect then (act ((s1.setSpn p { v with ack := expect }).bare p 0 0)).linkTick (16 + p)
  else (s1.bare p 4 expect.toNat).linkTick (16 + p)

/-- A packet is whole: it goes to the transaction layer. A header that fails its check is performed by no one; the origin is
told (spec R193, R310, R313). -/
def State.arrive (s : State) (l : List CLine) : State :=
  match l with
  | [] => s
  | h :: us =>
    let t : Txn := { hdr := h.data, units := us }
    if h.ok then { s with fab := { s.fab with loop := s.fab.loop ++ [t] } }
    else if 16 ≤ t.op then s
    else s.placeAnswer (s.doneTxn t 3 0 0)

/-- `DATA_FLIT` (spec R311, R313). -/
def execDataFlit (p : Nat) (f : BitVec 640) (s : State) : Host.Outcome State Fault Refusal :=
  if !(s.hears p 1 f) then .next s
  else
    .next (s.sequenced p f fun s1 =>
      let v := s1.spn p
      let line : CLine := { data := flitPayload f, ok := lineCheck (flitPayload f) = bfld f 560 16 }
      let rx := (if flitSop f then [] else v.rx) ++ [line]
      if flitEop f then (s1.setSpn p { v with rx := [] }).arrive rx else s1.setSpn p { v with rx := rx })

/-- `IDLE_FLIT`: it returns an ack (spec R311, R313). -/
def execIdleFlit (p : Nat) (f : BitVec 640) (s : State) : Host.Outcome State Fault Refusal :=
  if !(s.hears p 0 f) then .next s else .next ((s.takeAck p f).linkTick (16 + p))

/-- A replay of flits starts (spec R313, R320); none where there is nothing to replay. -/
def State.again (s : State) (p : Nat) (l : List Replay) : State :=
  if l = [] then s
  else
    let v := s.spn p
    (s.setSpn p { v with replays := min (v.replays + 1) 0xFFFFFF, tries := v.tries + 1 }).resend p l

/-- Sixteen replays in a row with no ack progress take the port DOWN (spec R313). -/
def State.triesOut (s : State) (p : Nat) : State := if 16 ≤ (s.spn p).tries then s.portDown p else s

/-- A replay from the first unacknowledged flit (spec R313). -/
def State.replay (s : State) (p : Nat) : State :=
  let v := s.spn p
  if v.buf.length ≤ v.acked then s else (s.again p (v.buf.drop v.acked)).triesOut p

/-- `NAK` (spec R313). -/
def execNak (p : Nat) (f : BitVec 640) (s : State) : Host.Outcome State Fault Refusal :=
  if !(s.hears p 4 f) then .next s else .next (((s.takeAck p f).replay p).linkTick (16 + p))

/-- `REPLAY_TIMEOUT` (spec R313). -/
def execReplayTimeout (p : Nat) (s : State) : Host.Outcome State Fault Refusal :=
  if p < 8 && ((s.spn p).st = 2 || (s.spn p).st = 3) then .next (s.replay p) else .next s

/-- `MARKER`: accepted after every earlier flit, and acknowledged (spec R276, R322). -/
def execMarker (p : Nat) (f : BitVec 640) (s : State) : Host.Outcome State Fault Refusal :=
  if !(s.hears p 2 f) then .next s
  else .next (s.sequenced p f fun s1 => s1.setSpn p { s1.spn p with macks := (s1.spn p).macks + 1 })

/-- `MARKER_ACK`: the oldest marker sent completes (spec R276, R322). -/
def execMarkerAck (p : Nat) (f : BitVec 640) (s : State) : Host.Outcome State Fault Refusal :=
  if !(s.hears p 3 f) then .next s
  else
    .next (s.sequenced p f fun s1 =>
      let v := s1.spn p
      match v.sentMarks with
      | [] => s1
      | n :: r => (s1.setSpn p { v with sentMarks := r }).markDone (16 + p) n none)

/-- A forced reduction at the sender: everything from the oldest open packet is replayed at the width of mask `m`, and the sender raises the
record with what it replays (spec R317), but for a loss whose record it raised already (spec R325). -/
def State.restripe (s : State) (p : Nat) (m : BitVec 16) (known : Bool) : State :=
  let v := s.spn p
  let old := activeOf v.tx
  let s1 := (s.setSpn p (({ v with tx := m, acked := 0 } : Spn).rewidth old (activeOf m))).again p v.buf
  let first := match v.buf with
    | r :: _ => r.seq
    | [] => 0
  (if known then s1 else s1.linkEvent (16 + p) 2 0 old (activeOf m) first v.buf.length (s1.linkIss (16 + p))).triesOut p

/-- The far receiver's mask arrives: the wavelengths it lost of those a failed laser feeds are told of now (spec R316). -/
def Spn.hear (v : Spn) (mask : BitVec 16) : Spn := { v with far := mask, gone := v.gone &&& mask }

/-- The wavelengths that a mask from the far receiver reports lost were all taken out here for a failed laser (spec R318, R325). -/
def Spn.knows (v : Spn) (mask : BitVec 16) : Bool :=
  let lost := v.far &&& ~~~ mask
  lost ≠ 0 && lost &&& ~~~ v.gone = 0

/-- The mask that the far receiver carries acts on the sender here: it widens gracefully where it only adds wavelengths, and otherwise reduces,
gracefully or by force as `calm` says (spec R316, R317, R318). -/
def State.heard (s : State) (p : Nat) (mask : BitVec 16) (calm : Bool) : State :=
  let v := s.spn p
  let s1 := s.setSpn p (v.hear mask)
  let m := (v.hear mask).target
  if widthOf (popCount 16 m.toNat) = 0 || (m ≠ v.tx && v.tx &&& ~~~ m = 0) || calm then s1.graceful p m
  else s1.restripe p m (v.knows mask)

/-- The far sender tells of its own change: the receiver here follows it (spec R316, R318). -/
def State.told (s : State) (p : Nat) (mask : BitVec 16) : State :=
  let v := s.spn p
  s.setSpn p (({ v with rxm := mask } : Spn).rewidth (activeOf v.rxm) (activeOf mask))

/-- `WIDTH`: the far receiver's mask, or what the far sender's own change leaves active. Which of the two a flit is that could be either, and
whether a reduction comes of a loss of light or of a write of dis at the far end, its layout does not say (log entry 29). -/
def execWidth (p : Nat) (f : BitVec 640) (s : State) : Host.Outcome State Fault Refusal :=
  if !(s.hears p 5 f) then .next s
  else
    let s1 := ({ s with free := s.free + 1 } : State).takeAck p f
    let mask : BitVec 16 := BitVec.ofNat 16 (bfld f 0 16)
    if mask ≠ 0 && activeOf mask = mask && Config.freeBool s.free 3 then .next ((s1.told p mask).linkTick (16 + p))
    else .next ((s1.heard p mask (Config.freeBool s.free 4)).linkTick (16 + p))

/-- `FLIT_CRC_FAILURE`: a flit whose CRC fails, or of a reserved type, is discarded (spec R312). -/
def execFlitCrcFailure (_ : Nat) (_ : BitVec 640) (s : State) : Host.Outcome State Fault Refusal := .next s

/-! ### Wavelengths and lasers -/

/-- The photocurrent of a dark wavelength: below 1/8 of its value at lock (spec R317; log entry 24). -/
def darkPd (v : Ring) (free : Nat) : BitVec 16 :=
  BitVec.ofNat 16 ((Config.freeVec free).toNat % 2 ^ 16 % max 1 (ceilDiv v.pd0.toNat 8))

/-- Wavelengths of a mask go dark. -/
def State.darken (s : State) (p : Nat) (dark : BitVec 16) : State :=
  (List.range 16).foldl (fun t w =>
    if bbit dark w then
      (({ t with free := t.free + 1 } : State)).onRing p w fun r => { r with lol := true, locked := false, pd := darkPd r t.free }
    else t) s

/-- A wavelength has light: its photocurrent stands at or above 1/8 of its value at lock (spec R316, R317). -/
def Ring.lit (r : Ring) : Bool := r.pd0 ≠ 0 && decide (r.pd0.toNat ≤ 8 * r.pd.toNat)

/-- The wavelengths of a mask that have light. -/
def State.litOf (s : State) (p : Nat) (m : BitVec 16) : BitVec 16 :=
  BitVec.ofNat 16 ((List.range 16).foldl (fun a w => if bbit m w && (s.ring (16 * p + w)).lit then a + 2 ^ w else a) 0)

/-- `LOSS_OF_LIGHT` on the wavelengths of a mask (spec R317, R319): those that had light lose it. -/
def execLossOfLight (p : Nat) (dark : BitVec 16) (s : State) : Host.Outcome State Fault Refusal :=
  let lost := s.litOf p dark
  if 8 ≤ p || lost = 0 then .next s
  else .next (((s.darken p lost).forced p).linkTick (16 + p))

/-- A ring holds resonance: its photocurrent, which is not zero, is the value at lock (spec R314; log entry 24). -/
def State.lockRing (s : State) (p w : Nat) : State :=
  let x : BitVec 16 := (Config.freeVec s.free).setWidth 16
  let pd := if x = 0 then 1 else x
  ({ s with free := s.free + 1 } : State).onRing p w fun r => { r with locked := true, pd := pd, pd0 := pd }

/-- The wavelengths a laser feeds, on its port (spec R314). -/
def laserBits (l : Nat) : BitVec 16 := BitVec.ofNat 16 (15 * 2 ^ (4 * (l % 4)))

/-- `LASER_FAIL` (spec R315, R318, R325). Whether the sender's own graceful reduction comes before the loss its far end sees is
open: the loss cancels it, and the far end's WIDTH flit then sets the width (spec R319; log entry 29). -/
def execLaserFail (l : Nat) (s : State) : Host.Outcome State Fault Refusal :=
  if 32 ≤ l then .next s
  else
    let p := l / 4
    let mon : BitVec 16 := (Config.freeVec s.free).setWidth 16
    let s1 := ({ s with free := s.free + 1 } : State).setLaser l { s.laser l with fail := true, ok := false, mon := mon }
    let act := s1.txActive p
    let s2 := s1.linkEvent (16 + p) 3 l act act 0 0 (s1.linkIss (16 + p))
    if (s2.spn p).st = 2 && Config.freeBool s.free 2 then
      let v := s2.spn p
      let u : Spn := { v with gone := v.gone ||| (v.far &&& laserBits l) }
      .next (((s2.setSpn p u).graceful p u.target).linkTick (16 + p))
    else .next s2

/-- `WAVELENGTH_RESTORED`: a wavelength becomes healthy; the receiver carries its mask to the sender, which widens and raises the record
(spec R316, R318). -/
def execWavelengthRestored (p w : Nat) (s : State) : Host.Outcome State Fault Refusal :=
  if 8 ≤ p || 16 ≤ w || !((s.ring (16 * p + w)).lock) || (s.ring (16 * p + w)).healthy then .next s
  else
    let s1 := s.lockRing p w
    if s1.healthy p = s.healthy p then .next s1 else .next (s1.carryMask p)

/-- An enabled laser stands at its power again: `mon` shows it (spec R315; log entry 24). -/
def State.laserUp (s : State) (l : Nat) : State :=
  let v := s.laser l
  if v.en && !v.ok then
    ({ s with free := s.free + 1 } : State).setLaser l { v with ok := true, mon := (Config.freeVec s.free).setWidth 16 }
  else s

/-- A write of a laser's EN: a laser that stands at its power again feeds the wavelengths that its failure took out (spec R315, R318). -/
def State.laserEnable (s : State) (l : Nat) (en : Bool) : State :=
  let v := s.laser l
  if en then
    if v.en then s
    else
      let s1 := (s.setLaser l { v with en := true }).laserUp l
      let w := s1.spn (l / 4)
      let u : Spn := { w with gone := w.gone &&& ~~~ laserBits l }
      if u = w then s1
      else ((s1.setSpn (l / 4) u).graceful (l / 4) u.target).linkTick (16 + l / 4)
  else s.setLaser l { v with en := false, ok := false, mon := 0 }

/-- `LASER_ENABLE_WRITE` (spec R315). -/
def execLaserEnableWrite (l : Nat) (en : Bool) (s : State) : Host.Outcome State Fault Refusal :=
  if 32 ≤ l then .next s else .next (s.laserEnable l en)

/-- A write of `dis` (spec R316, R318, R320): it changes the mask of the receiver, which the sender at the far end is told, and that of the
sender here. -/
def State.disWrite (s : State) (p : Nat) (dis : BitVec 16) : State :=
  let v := s.spn p
  let s1 := s.setSpn p { v with dis := dis }
  if v.st = 2 && widthOf (popCount 16 (s1.healthy p).toNat) = 0 then s1.portDown p
  else ((if s1.healthy p = s.healthy p then s1 else s1.carryMask p).graceful p (s1.spn p).target).linkTick (16 + p)

/-- `PORT_WAVELENGTH_DISABLE` (spec R318). -/
def execPortWavelengthDisable (p : Nat) (dis : BitVec 16) (s : State) : Host.Outcome State Fault Refusal :=
  if 8 ≤ p then .next s else .next (s.disWrite p dis)

/-! ### Darkening and relock -/

/-- A request to go dark (spec R321). -/
def State.goDark (s : State) (p : Nat) : State :=
  let v := s.spn p
  if v.st = 2 then (s.leaveUp p 3).2
  else if v.st = 0 then
    let s1 := s.fresh p
    (s1.setSpn p { s1.spn p with st := 4 }).fabTick
  else s

/-- `PORT_GO_DARK` (spec R321). -/
def execPortGoDark (p : Nat) (s : State) : Host.Outcome State Fault Refusal :=
  if 8 ≤ p then .next s else .next (s.goDark p)

/-- A request to relock (spec R321). -/
def State.relock (s : State) (p : Nat) : State :=
  let v := s.spn p
  if v.st = 0 || v.st = 4 then s.setSpn p { v with st := 1, dark := v.st = 4 } else s

/-- `PORT_RELOCK` (spec R321). -/
def execPortRelock (p : Nat) (s : State) : Host.Outcome State Fault Refusal :=
  if 8 ≤ p then .next s else .next (s.relock p)

/-- `DARKING_COMPLETE` (spec R321). -/
def execDarkingComplete (p : Nat) (s : State) : Host.Outcome State Fault Refusal :=
  let v := s.spn p
  if 8 ≤ p || v.st ≠ 3 || v.acked < v.buf.length || v.rx ≠ [] then .next s
  else .next ((s.setSpn p { v with st := 4, tx := 0 }).fabTick)

/-- `RELOCK_COMPLETE`: rings locked, at least four wavelengths healthy, partner identified; the receiver carries its mask, and until the far
end's arrives the sender follows the same mask (spec R316, R321, R325; log entry 29). -/
def execRelockComplete (p partner pkind : Nat) (s : State) : Host.Outcome State Fault Refusal :=
  let v := s.spn p
  let locks := (List.range 16).all fun w => (s.ring (16 * p + w)).lock
  if 8 ≤ p || v.st ≠ 1 || !locks || 12 < popCount 16 v.dis.toNat || 2048 ≤ partner || 3 ≤ pkind then .next s
  else
    let s1 := (List.range 16).foldl (fun t w => t.lockRing p w) s
    let s2 := (List.range 4).foldl (fun t j => t.laserUp (4 * p + j)) s1
    let keep := !v.dark && v.former = some (BitVec.ofNat 11 partner)
    let s3 := if keep then s2 else s2.fresh p
    let u := s3.spn p
    let up := s3.setSpn p { u with st := 2, tx := s3.healthy p, far := s3.healthy p, gone := 0, rxm := s3.healthy p, partner := BitVec.ofNat 11 partner, pkind := BitVec.ofNat 2 pkind,
                                   former := some (BitVec.ofNat 11 partner), events := [], lost := 0, tries := 0, dark := false }
    let s4 := (up.carryMask p).again p (u.buf.drop u.acked)
    let s5 := u.events.foldl (fun t n => t.finish (linkCtx (16 + p)) n none 0) s4
    let n := if keep then v.buf.length - v.acked else u.lost
    let first := match keep, v.buf.drop v.acked with
      | true, r :: _ => r.seq
      | _, _ => 0
    .next ((s5.linkEvent (16 + p) 5 0 0 (s5.txActive p) first n (s5.linkIss (16 + p))).linkTick (16 + p))

/-- `RELOCK_TIMEOUT`: 100 µs in RELOCK take the port DOWN (spec R321, R325). -/
def execRelockTimeout (p : Nat) (s : State) : Host.Outcome State Fault Refusal :=
  let v := s.spn p
  if 8 ≤ p || v.st ≠ 1 then .next s
  else
    let s1 := (s.setSpn p { v with st := 0, dark := false }).linkEvent (16 + p) 6 0 0 0 0 0 (s.linkIss (16 + p))
    .next (s1.linkEvent (16 + p) 4 0 0 0 0 0 (s1.linkIss (16 + p))).fabTick

/-! ### UALink -/

/-- `UALINK_TRAINING`: UP at four lanes, held DOWN below; with no lane the port has only begun to train (spec R308, R309, R325; log
entry 100). -/
def execUalinkTraining (p lanes partner pkind : Nat) (s : State) : Host.Outcome State Fault Refusal :=
  let v := s.ual p
  if 16 ≤ p || v.st = 2 || 2048 ≤ partner || 3 ≤ pkind then .next s
  else if lanes = 0 then .next (s.setUal p { v with st := 1 })
  else if lanes < 4 then .next (s.setUal p { v with st := 0 })
  else
    let s1 := s.setUal p { v with st := 2, partner := BitVec.ofNat 11 partner, pkind := BitVec.ofNat 2 pkind }
    .next ((s1.linkEvent p 5 0 0 0 0 0 (s1.linkIss p)).linkTick p)

/-- `UALINK_PORT_DOWN`: the link or the partner is lost (spec R309, R325). -/
def execUalinkPortDown (p : Nat) (s : State) : Host.Outcome State Fault Refusal :=
  let v := s.ual p
  if 16 ≤ p || v.st ≠ 2 then .next s
  else
    let s1 := s.setUal p { v with st := 0, partner := 0, pkind := 0 }
    .next (s1.linkEvent p 4 0 0 0 0 0 (s1.linkIss p)).fabTick

/-- `UALINK_READ_REQUEST`: an unsupported-request completion, and nothing is performed (spec R308). -/
def execUalinkReadRequest (p tag : Nat) (s : State) : Host.Outcome State Fault Refusal :=
  if p < 16 && (s.ual p).st = 2 then .next (s.wireOut (.unsupported p tag)) else .next s

end Sys2Proof.Machine
end

