-- ==== Sys2Proof/Machine/Copy.lean ====
section
/-! DEFINITION. Timelines and the copy engines: `TLWAIT`, `TLREAD`, `NESTW`, `COPYN`, and the progress of copy commands (spec R217 to
R227). -/

namespace Sys2Proof.Machine

/-! ### Contexts -/

/-- A context belongs to a partition (spec R218, R221, R229, R338). -/
def State.ctxOwn (s : State) (p ctx : Nat) : Bool :=
  let x := ctx % 4096
  let v := s.part p
  match ctx / 4096 with
  | 0 => bbit v.halves (x / 4)
  | 1 => v.cube
  | 2 => bbit v.fab x
  | 3 => bbit v.rlc x
  | 4 => s.ownsLink p x
  | 5 => s.slotOwn p x
  | 6 => bbit v.area x
  | _ => false

/-- The context of a timeline form belongs to the strand's partition (spec R218). -/
def Op.ownCtx (ctx : Nat) : Op Unit := do
  let own ← Op.see fun s => s.ctxOwn s.view.id.part ctx
  Op.raiseIf (!own) (illegalField 32 16 0)

/-! ### Timelines -/

/-- `TLWAIT` (spec R129, R218): an engine trap that the value covers is delivered here. -/
def execTlwait (f : TForm) (s : State) : Host.Outcome State Fault Refusal :=
  runOp (do
    let c := f.ctx.toNat
    let a ← Op.readS f.a 10
    Op.hint f.ru f.pb [(false, f.a)]
    Op.ownCtx c
    Op.deliver fun e => e.ctx = c && decide (e.seq ≤ a.toNat)
    let done ← Op.see fun s => decide (a.toNat ≤ (s.ctx c).counter.toNat)
    Op.waitFor 1 c a 3 done
    Op.mark) s

/-- `TLREAD` (spec R219). -/
def execTlread (f : TForm) (s : State) : Host.Outcome State Fault Refusal :=
  runOp (do
    Op.ownCtx f.ctx.toNat
    let v ← Op.see fun s => (s.ctx f.ctx.toNat).counter
    Op.writeM f.d 16 v) s

/-- `TLREAD.err`: the error word is read and cleared in one step (spec R219, R220). -/
def execTlreadErr (f : TForm) (s : State) : Host.Outcome State Fault Refusal :=
  runOp (do
    Op.ownCtx f.ctx.toNat
    let v ← Op.see fun s => (s.ctx f.ctx.toNat).err
    Op.writeM f.d 16 v
    Op.change fun s => s.setCtx f.ctx.toNat { s.ctx f.ctx.toNat with err := 0 }) s

/-! ### Issue -/

/-- `NESTW` (spec R222). -/
def execNestw (f : TForm) (s : State) : Host.Outcome State Fault Refusal :=
  runOp (do
    let a ← Op.readS f.a 10
    Op.hint f.ru f.pb [(false, f.a)]
    Op.ownCtx f.ctx.toNat
    let r ← Op.loadNow (lineVa a) 64
    match r with
    | .error l => Op.integrity l
    | .ok v => do
      let d : Line := BitVec.ofNat 512 v
      Op.raiseIf (!(nestOk d)) (controlTrap 0x04)
      Op.change fun s => { s with nests := SMap.set 0 s.nests f.ctx.toNat d }) s

/-- The issuer of an engine command of the strand at hand. -/
def State.issuer (s : State) : Issuer := .strand s.cur s.view.id s.view.fr

/-- The allotment units of the window, as an engine command fixes them (spec R55). -/
def Strand.windowUnits (t : Strand) : List Nat := (List.range t.win.f).map t.unit

/-- `COPYN` (spec R223, R225). -/
def execCopyn (f : TForm) (s : State) : Host.Outcome State Fault Refusal :=
  runOp (do
    let x := f.ctx.toNat
    let (a, b) ← Op.readAB f.a f.b
    let c ← Op.readS f.c 54
    Op.hint f.ru f.pb [(false, f.a), (false, f.b), (false, f.c)]
    Op.ownCtx x
    Op.raiseIf (bfld c 8 56 ≠ 0 || bfld c 6 2 = 3 || bfld c 4 2 = 3 || decide (12 < bfld c 0 4)) (illegalField 54 6 c)
    let full ← Op.see fun s => decide (64 ≤ s.copiesOf x)
    Op.stallIf full
    let now ← Op.see State.now
    let early ← Op.look fun t => t.pending || !(t.landed now)
    Op.stallIf (bfld c 4 2 = 2 && early)
    let gate ← Op.enqueue .both .cmd none false 3 false
    let units ← Op.look fun t => if bfld c 4 2 = 2 || bfld c 6 2 = 2 then t.windowUnits else []
    let iss ← Op.see State.issuer
    let pasid ← Op.look fun t => t.id.pasid.toNat
    let n ← (fun s => .ok (s.copyStart x iss (some gate) pasid a b c units) : Op Nat)
    Op.writeM f.d 16 (BitVec.ofNat 64 n)) s

/-! ### Transfers -/

/-- Why a piece of an engine transfer does not move: a page-in, a frozen page, or a failure with its error-word entry; and the state with what it
logged and walked (spec R184, R191, R224). -/
inductive MoveStop where
  | page (va code : Nat) (s : State)
  | frozen (s : State)
  | fail (k : Nat × Nat) (s : State)

/-- A fault of a walk, as an engine transfer takes it (spec R224). -/
def VFault.move (f : VFault) (part pasid : Nat) (s : State) : MoveStop :=
  match f with
  | .pageIn c va => .page va c s
  | .frozen => .frozen s
  | .mem c va => .fail (1, c) (s.nodeSeen part pasid va c)
  | .parcel _ _ => .fail (4, 3) s

/-- A run of storage: the space (0 global, 1 scratchpad, 2 window bytes of the allotment), first byte and count (spec R224). -/
abbrev Store := Nat × Nat × Nat

/-- The bytes of a window run (spec R55). -/
def Strand.winBytes (t : Strand) (units : List Nat) (off n : Nat) : List (Nat × Byte) :=
  (List.range n).map fun i =>
    let u := units.getD ((off + i) / 256) 0
    (u * 256 + (off + i) % 256, BitVec.ofNat 8 (bfld (t.readUnit u) (8 * ((off + i) % 256)) 8))

/-- Reads a run of bytes of a space for an engine command: the storage, and the value (spec R191, R193, R223). -/
def State.moveRead (s : State) (part sid spad pasid : Nat) (units : List Nat) (space off n : Nat) :
    Except MoveStop (List Store × Nat × State) :=
  if space = 0 then
    if !(s.isLocal off) then .error (.fail (1, 0x04) s)
    else
      match s.translate pasid off n .read with
      | .error f => .error (f.move part pasid (s.tried pasid off n .read))
      | .ok (segs, s1) =>
        if (s1.mem.badSeg segs).isSome then .error (.fail (2, 0) s1)
        else .ok (segs.map fun g => (0, g.pa, g.len), s1.mem.gather segs, s1)
  else
    let t := (s.strand? sid).getD {}
    if space = 1 then
      if spad * 1024 < off + n then .error (.fail (1, 0x06) s)
      else
        let ws := t.invalidWords off n
        let s1 := if ws = [] then s else s.logWords t ws
        if (t.spadBad off n).isSome then .error (.fail (2, 0) s)
        else if ws ≠ [] && !((s.part t.id.part).spMode) then .error (.fail (1, 0x05) s1)
        else .ok ([(1, off, n)], t.spadLogged off n, s1)
    else if units.length * 256 < off + n then .error (.fail (5, 0) s)
    else
      let l := t.winBytes units off n
      .ok (l.map fun e => (2, e.1, 1), ofBytes (l.map Prod.snd), s)

/-- Finds where a run of bytes inside one 64-byte line goes: the space (3 for a remote VA) and the address (spec R223). -/
def State.movePlace (s : State) (part spad pasid : Nat) (units : List Nat) (space off n : Nat) :
    Except MoveStop ((Nat × Nat) × State) :=
  if space = 0 then
    if !(s.isLocal off) then .ok ((3, off), s)
    else
      match s.translate pasid off n .write with
      | .error f => .error (f.move part pasid s)
      | .ok (segs, s1) => .ok ((0, (segs.headD ⟨0, 0, 0, 0⟩).pa), s1)
  else if space = 1 then
    if spad * 1024 < off + n then .error (.fail (1, 0x06) s) else .ok ((1, off), s)
  else if units.length * 256 < off + n then .error (.fail (5, 0) s)
  else .ok ((2, units.getD (off / 256) 0 * 256 + off % 256), s)

/-- A piece of a transfer: what it read, where it goes, its count of bytes and their value. -/
structure Piece where
  src : List Store
  space : Nat
  addr : Nat
  len : Nat
  val : Nat
  deriving DecidableEq, Repr

/-- Cuts a run of bytes at the ends of 64-byte lines: offset and count of each piece (spec R224). -/
def lineCut : Nat → Nat → Nat → Nat → List (Nat × Nat)
  | 0, _, _, _ => []
  | k + 1, o, a, n =>
    if n = 0 then []
    else
      let m := min n (64 - a % 64)
      (o, m) :: lineCut k (o + m) (a + m) (n - m)

/-- What a plan has found: the pieces in order, the first failure, a page that the command waits for, and the failing destination lines by
space. -/
structure Plan where
  st : State
  pieces : List Piece := []
  fail : Option (Nat × Nat) := none
  page : Option (Nat × Nat) := none
  frozen : Bool := false
  lost : List (Nat × Nat) := []

/-- A stop of a piece enters the plan: after a failure nothing is waited for (spec R224). -/
def Plan.stop (p : Plan) (x : MoveStop) : Plan :=
  match x with
  | .page va c s => if p.fail.isSome then { p with st := s } else { p with st := s, page := some (p.page.getD (va, c)) }
  | .frozen s => if p.fail.isSome then { p with st := s } else { p with st := s, frozen := true }
  | .fail k s => { p with st := s, fail := some (p.fail.getD k) }

/-- A plan that is not carried out now leaves the page-table bits that its walks set (spec R184). -/
def Plan.left (p : Plan) (s : State) : State := { s with mem := p.st.mem }

/-- The line a piece writes: its space and the line's index there. -/
def Piece.line (x : Piece) : Nat × Nat := (x.space, x.addr / 64)

/-- A piece would be merged into a line that fails its check (spec R193). -/
def Piece.merges (x : Piece) (m : Mem) (t : Strand) : Bool :=
  x.len < 64 && ((x.space = 0 && m.lineBad (x.addr / 64)) || (x.space = 1 && t.scrBad.contains (x.addr / 64)))

/-- A piece enters the plan, unless it would be merged into a line that fails its check: then the command fails at that line (spec R193,
R224). -/
def Plan.put (p : Plan) (part sid : Nat) (x : Piece) (s : State) : Plan :=
  if x.merges s.mem ((s.strand? sid).getD {}) then
    { p with st := if x.space = 0 then s.lineEvent part x.line.2 else s.spadEvent part x.line.2
             fail := some (p.fail.getD (2, 0)), lost := p.lost ++ [x.line] }
  else { p with st := s, pieces := p.pieces ++ [x] }

/-- The pieces a plan writes: all without a failure; else which destination lines are written is open, but for the failing ones (spec R224;
log entry 12). -/
def Plan.kept (p : Plan) (free : Nat) : List Piece :=
  if p.fail.isNone then p.pieces
  else p.pieces.filter fun x => !(p.lost.contains x.line) && Config.freeBool free (x.space + 4 * (x.addr / 64))

/-- Plans one piece of a copy (spec R223, R224). -/
def Plan.piece (p : Plan) (c : CopyCmd) (part sid spad so d o n : Nat) : Plan :=
  if p.page.isSome || p.frozen then p
  else
    match p.st.moveRead part sid spad c.pasid c.units (bfld c.ctl 4 2) ((so + o) % 2 ^ 64) n with
    | .error x =>
      match p.st.movePlace part spad c.pasid c.units (bfld c.ctl 6 2) ((d + o) % 2 ^ 64) n with
      | .ok ((sp, a), _) => ({ p with lost := p.lost ++ [(sp, a / 64)] } : Plan).stop x
      | .error _ => p.stop x
    | .ok (src, v, s1) =>
      match s1.movePlace part spad c.pasid c.units (bfld c.ctl 6 2) ((d + o) % 2 ^ 64) n with
      | .error x => p.stop x
      | .ok ((sp, a), s2) => p.put part sid { src := src, space := sp, addr := a, len := n, val := v } s2

/-- Plans one iteration of a copy: its unit at both offsets (spec R223). -/
def Plan.unit (p : Plan) (c : CopyCmd) (part sid spad t : Nat) : Plan :=
  let u := 2 ^ bfld c.ctl 0 4
  let so := (BitVec.ofInt 64 ((c.src.toNat : Int) + nestOffAt c.nest 0 t)).toNat
  let d := (BitVec.ofInt 64 ((c.dst.toNat : Int) + nestOffAt c.nest 1 t)).toNat
  (lineCut (u + 1) 0 d u).foldl (fun q x => q.piece c part sid spad so d x.1 x.2) p

/-- A byte of storage belongs to a run that the command reads (spec R224). -/
def overlaps (srcs : List Store) (space a : Nat) : Bool :=
  srcs.any fun r => r.1 = space && decide (r.2.1 ≤ a) && decide (a < r.2.1 + r.2.2)

/-- The bytes of a piece: free values where its storage is also storage that the command reads (spec R224; log entry 12). -/
def Piece.bytes (p : Piece) (srcs : List Store) (free : Vec) : List Byte :=
  (toBytes p.len p.val).mapIdx fun i b => if overlaps srcs p.space (p.addr + i) then BitVec.ofNat 8 (bfld free (8 * i) 8) else b

/-- Writes a piece in its space, over a V result of a shared granule (spec R155, R191, R192, R223, R224; log entry 22). -/
def State.putPiece (s : State) (sid part : Nat) (srcs : List Store) (p : Piece) : State :=
  let bs := p.bytes srcs (Config.freeVec s.free)
  let s0 : State := { s with free := s.free + 1 }
  if p.space = 0 then
    let (m, bad) := s0.mem.write p.addr bs
    (({ s0 with mem := m } : State).spoilStatus (s.statusHits [(p.addr, p.len)])).lineEvents part bad
  else if p.space = 1 then s0.onStrand sid fun t => (t.spadWrite p.addr bs).1
  else if p.space = 2 then
    (s0.onStrand sid fun t => t.writeReg (p.addr / 256) (p.addr % 256) p.len (ofBytes bs)).dropLatchAt sid
      (.reg (p.addr / 256) (p.addr % 256) p.len)
  else s

/-- The frames of an issuer. -/
def Issuer.spad : Issuer → Nat
  | .strand _ _ fr => fr.spad
  | .node _ => 0

/-- The packets of the remote pieces of a transfer (spec R190, R223). -/
def State.movePkts (s : State) (pasid tag : Nat) (l : List Piece) : List Txn :=
  totalLines ((l.filter fun p => p.space = 3).flatMap fun p =>
    runPkts { op := 2, dst := 0, src := s.mem.devid.toNat, tag := tag, pasid := pasid } (p.len + 1) p.addr p.len p.val)

/-- Makes the writes of a plan; with a failure, which destination lines are written is open (spec R224; log entry 12). Answers
the state, and whether remote writes were sent. -/
def State.putPlan (s : State) (sid part pasid ctx seq : Nat) (p : Plan) : Bool × State :=
  let keep := p.kept s.free
  let srcs := p.pieces.flatMap Piece.src
  let s0 : State := { p.st with free := s.free + 1 }
  let s1 := keep.foldl (fun t x => t.putPiece sid part srcs x) s0
  let (tag, s2) := s1.takeTag
  let pk := s2.movePkts pasid tag keep
  if pk = [] then (false, s1) else (true, s2.sendPkts (.cmd ctx seq) part tag pk)

/-- A plan has a piece for a device that is held while the buffer of held sends is full: its engine stalls (spec R277). -/
def Plan.blocked (p : Plan) (s : State) (part : Nat) : Bool :=
  (p.pieces.filter fun x => x.space = 3).any fun x => s.holdFull part [homeOf x.addr]

/-! ### Commands -/

/-- A copy command completes, with its node (spec R30, R217, R342). -/
def State.copyEnd (s : State) (c : CopyCmd) : State :=
  let s1 : State := { s with copies := s.copies.filter fun x => !(x.ctx = c.ctx && x.seq = c.seq) }
  let s2 := match c.iss, c.fail with
    | .node n, some (k, d) => s1.nodeFail n k d c.ctx c.seq
    | _, _ => s1
  ((s2.finish c.ctx c.seq c.fail 0).settleAll).fabTick

/-- A copy command by context and number replaced. -/
def State.setCopy (s : State) (c : CopyCmd) : State :=
  { s with copies := s.copies.map fun x => if x.ctx = c.ctx && x.seq = c.seq then c else x }

/-- A copy command makes its transfers; it completes unless it waits for a page or for remote writes (spec R217, R223 to
R225). -/
def State.copyRun (s : State) (c : CopyCmd) : State :=
  let part := s.partOf c.iss
  let sid := c.iss.sid
  let p : Plan := (List.range (nestCount c.nest)).foldl (fun (q : Plan) t => q.unit c part sid c.iss.spad t) { st := s }
  match p.page with
  | some (va, code) => ((p.left s).pageInEvent part c.pasid va code).setCopy { c with stalled := true }
  | none =>
    if p.frozen || p.blocked s part then p.left s
    else
      let (sent, s1) := s.putPlan sid part c.pasid c.ctx c.seq p
      let c1 := { c with fail := p.fail, sent := true }
      if !sent then s1.copyEnd c1
      else
        match s1.copies.find? fun x => x.ctx = c.ctx && x.seq = c.seq with
        | none => s1
        | some x => (s1.setCopy { c1 with fail := match p.fail with
            | some k => some k
            | none => x.fail }).fabTick

/-- `COPY_PAGE_IN_RESUME` (spec R224, R264, R342): the page that commands of a context wait for is resident; nodes that could not issue
their command try again. -/
def execCopyPageInResume (ctx : Nat) (s : State) : Host.Outcome State Fault Refusal :=
  .next ({ s with
    copies := s.copies.map fun c => if c.ctx = ctx then { c with stalled := false } else c
    fab := { s.fab with
      cmds := s.fab.cmds.map fun c => if c.ctx = ctx then { c with stalled := false } else c
      loop := if ctx / 4096 = 2 then s.fab.stalled ++ s.fab.loop else s.fab.loop
      stalled := if ctx / 4096 = 2 then [] else s.fab.stalled } } : State).retryStarts.fabTick

/-- `COPY_COMMAND_COMPLETE` (spec R217, R223 to R225): command `n` of a context makes its transfers and completes, or completes
once its remote writes are answered. -/
def execCopyCommandComplete (ctx n : Nat) (s : State) : Host.Outcome State Fault Refusal :=
  match s.copies.find? fun c => c.ctx = ctx && c.seq = n with
  | none => .next s
  | some c =>
    if c.stalled || !(s.mayStart c.iss c.gate) then .next s
    else if c.sent then
      if s.fab.outs.any fun o => o.org = .cmd ctx n then .next s else .next (s.copyEnd c)
    else .next (s.copyRun c)

end Sys2Proof.Machine
end

