-- ==== Sys2Proof/Machine/System.lean ====
section
/-! DEFINITION. System instructions: `TRAP` to `SPFREE`, the control registers a program reads and writes, the return from a
handler (spec R17, R35, R38, R45, R49, R50, R69, R126, R131, R138 to R147). -/

namespace Sys2Proof.Machine

/-! ### Reading control registers -/

/-- The cluster a per-cluster register reads, none on the CIC (spec R326). -/
def Strand.clusterOf (t : Strand) : Option Nat := if t.place.cic then none else some t.place.cluster.toNat

/-- The clock of a cluster. -/
def State.clk (s : State) (c : Nat) : Clk := SMap.get {} s.power.clks c

/-- The clock of a cluster replaced. -/
def State.setClk (s : State) (c : Nat) (v : Clk) : State := { s with power := { s.power with clks := SMap.set {} s.power.clks c v } }

/-- A memory stack. -/
def State.stack (s : State) (i : Nat) : Stack := SMap.get {} s.power.hbm i

/-- A memory stack replaced. -/
def State.setStack (s : State) (i : Nat) (v : Stack) : State :=
  { s with power := { s.power with hbm := SMap.set {} s.power.hbm i v } }

/-- Registers of the strand itself (spec R17, R35, R38, R45, R69, R117, R126, R180, R297). -/
def State.csrStrand (s : State) (t : Strand) (n : Nat) : Nat :=
  let ix (i : Nat) : Nat := t.loop.idx.getD i 0 % 65536
  match n with
  | 0x010 => t.self.toNat
  | 0x011 => t.gangReg.toNat
  | 0x012 => t.sch.waitspin.toNat
  | 0x013 => t.win.f % 2 ^ 11 * 2 ^ 53 + (t.win.hi - t.win.lo) % 2 ^ 11 * 2 ^ 42 + t.win.base % 2 ^ 32
  | 0x014 => ix 0 + ix 1 * 2 ^ 16 + ix 2 * 2 ^ 32 + ix 3 * 2 ^ 48
  | 0x015 => ix 4 + ix 5 * 2 ^ 16 + t.loop.n.toNat * 2 ^ 32 + b2n t.loop.pend * 2 ^ 62 + b2n t.loop.act * 2 ^ 63
  | 0x016 => s.mem.devid.toNat
  | 0x017 => t.bind.toNat
  | 0x018 => t.views.s.toNat
  | 0x019 => t.views.v.toNat
  | 0x01A => t.views.t.toNat
  | 0x01B => t.views.a.toNat
  | 0x020 => t.fp.rm.toNat
  | 0x021 => t.fp.flags.toNat
  | 0x022 => t.fp.trapen.toNat
  | 0x038 => t.trap.ret.toNat
  | k => if 0x030 ≤ k && k < 0x038 then bfld t.trap.trec (64 * (k - 0x030)) 64 else 0

/-- Registers of the cube (spec R231, R232, R258). -/
def State.csrCube (s : State) (n : Nat) : Nat :=
  match n with
  | 0x040 => s.cube.layers.toNat
  | 0x041 => s.cube.map.toNat
  | 0x042 => s.cube.mode.toNat
  | 0x043 => s.cube.step.toNat
  | 0x044 => s.cube.temp.toNat
  | 0x045 => s.cube.chg.toNat
  | k => if 0x048 ≤ k && k < 0x050 then (SMap.get 0 s.cube.thr (k - 0x048)).toNat else 0

/-- The registers of a request area (spec R272). -/
def State.csrReq (s : State) (n : Nat) : Nat :=
  if n < 0x140 then (s.area (n - 0x100)).base.toNat else (s.area (n - 0x140)).cap.toNat + (s.area (n - 0x140)).origin.toNat * 2 ^ 32

/-- Per-cluster registers (spec R328 to R330). -/
def State.csrClk (s : State) (c n : Nat) : Nat :=
  let k := s.clk c
  if n = 0x840 then k.fmin + k.fmax * 2 ^ 8 + k.thr * 2 ^ 16
  else if n = 0x841 then k.cur + k.target * 2 ^ 8 + k.seq * 2 ^ 16 + k.istall % 2 ^ 20 * 2 ^ 24 + k.mstall % 2 ^ 20 * 2 ^ 44
  else k.slack + k.rail * 2 ^ 8 + b2n k.floor * 2 ^ 18 + b2n k.cap * 2 ^ 19

/-- Eight temperatures packed, each saturating at 255 (spec R331). -/
def temps8 (l : List Nat) (from_ : Nat) : Nat :=
  (List.range 8).foldl (fun a i => a + min (l.getD (from_ + i) 0) 255 * 2 ^ (8 * i)) 0

/-- Registers of the memory stack (spec R331, R332). -/
def State.csrHbm (s : State) (n : Nat) : Nat :=
  if n < 0x860 then temps8 (s.stack ((n - 0x850) / 2)).temps (8 * (n % 2))
  else if n < 0x868 then
    let k := s.stack (n - 0x860)
    min k.swaps (2 ^ 26 - 1) + k.avail % 2 ^ 22 * 2 ^ 26 + k.hot.toNat * 2 ^ 48
  else (s.stack (n - 0x868)).err.toNat

/-- Registers that system software writes (spec R35, R134, R137, R191, R258, R262, R278, R326 to R334, R338, R347), as the
strand reads them. -/
def State.csrSys (s : State) (part : Nat) (cluster : Option Nat) (n : Nat) : Nat :=
  let p := s.part part
  match n with
  | 0x810 => p.resv.toNat
  | 0x811 => p.gerr.toNat
  | 0x812 => s.chuck.ptimeout.toNat
  | 0x813 => s.chuck.ctx.toNat
  | 0x814 => b2n p.spMode
  | 0x815 => p.spLog.toNat
  | 0x820 => s.cube.cfg.toNat
  | 0x830 => p.fbLog.toNat
  | 0x831 => p.fbLogva.toNat
  | 0x832 => p.pcLo % 2 ^ 12 + p.pcN % 2 ^ 13 * 2 ^ 12
  | 0x870 => p.share.toNat
  | 0x871 => p.deficit.toNat
  | 0x878 => s.power.thr.toNat + b2n s.power.promote * 2 ^ 16
  | 0x880 => s.host.late.toNat
  | 0x881 => part % 64
  | k =>
    if 0x840 ≤ k && k < 0x843 then
      match cluster with
      | some c => s.csrClk c k
      | none => 0
    else if 0x850 ≤ k && k < 0x870 then s.csrHbm k else 0

/-- Registers of the links (spec R307, R309, R314, R315, R320, R361). -/
def State.csrLink (s : State) (n : Nat) : Nat :=
  if n < 0x980 then
    let r := s.ring (n - 0x900)
    r.dac.toNat + r.pd.toNat * 2 ^ 16 + b2n r.lock * 2 ^ 33 + b2n r.locked * 2 ^ 34 + b2n r.lol * 2 ^ 35
  else if n < 0x9A0 then
    let l := s.laser (n - 0x980)
    l.mon.toNat + b2n l.ok * 2 ^ 16 + b2n l.fail * 2 ^ 17 + b2n l.en * 2 ^ 18
  else if n < 0x9A8 then
    let v := s.spn (n - 0x9A0)
    let a := if v.st = 2 || v.st = 3 then s.rxActive (n - 0x9A0) else 0
    v.st * 2 ^ 3 + popCount 16 a.toNat * 2 ^ 6 + v.dis.toNat * 2 ^ 16 + a.toNat * 2 ^ 32
      + (s.healthy (n - 0x9A0)).toNat * 2 ^ 48
  else if n < 0x9B0 then
    let v := s.spn (n - 0x9A8)
    v.pkind.toNat * 2 ^ 11 + v.partner.toNat * 2 ^ 13 + v.widths % 2 ^ 16 * 2 ^ 24 + v.replays % 2 ^ 24 * 2 ^ 40
  else if n < 0x9C0 then
    let v := s.ual (n - 0x9B0)
    v.st + v.pkind.toNat * 2 ^ 3 + v.partner.toNat * 2 ^ 5
  else if n < 0x9D8 then (s.ctx (linkCtx (n - 0x9C0))).issued.toNat
  else if n = 0x9E0 then s.fab.adrop.toNat
  else 0

/-- The value of a control register for a strand (spec R142). -/
def State.csr (s : State) (t : Strand) (n : Nat) : W64 :=
  BitVec.ofNat 64
    (if n < 0x040 then s.csrStrand t n
     else if n < 0x050 then s.csrCube n
     else if n < 0x180 then s.csrReq n
     else if n < 0x900 then s.csrSys t.id.part t.clusterOf n
     else s.csrLink n)

/-- A CSR number names a register (spec R101). -/
def csrNamed (n : Nat) : Bool :=
  (decide (0x010 ≤ n) && decide (n ≤ 0x01B)) || (decide (0x020 ≤ n) && decide (n ≤ 0x022))
    || (decide (0x030 ≤ n) && decide (n ≤ 0x038)) || (decide (0x040 ≤ n) && decide (n ≤ 0x04F))
    || (decide (0x100 ≤ n) && decide (n < 0x180)) || (decide (0x810 ≤ n) && decide (n ≤ 0x815)) || n = 0x820
    || (decide (0x830 ≤ n) && decide (n ≤ 0x832)) || (decide (0x840 ≤ n) && decide (n ≤ 0x842))
    || (decide (0x850 ≤ n) && decide (n ≤ 0x871)) || n = 0x878 || n = 0x880 || n = 0x881
    || (decide (0x900 ≤ n) && decide (n < 0x9D8)) || n = 0x9E0

/-- A CSR that a program may write in any partition (spec R35, R45, R69, R126). -/
def csrOpen (n : Nat) : Bool :=
  n = 0x012 || (decide (0x018 ≤ n) && decide (n ≤ 0x01B)) || (decide (0x020 ≤ n) && decide (n ≤ 0x022)) || n = 0x038

/-- A strand of a partition may write a CSR (spec R101, R272). -/
def State.csrMayWrite (s : State) (part n : Nat) : Bool :=
  csrOpen n || (decide (0x100 ≤ n) && decide (n < 0x180) && bbit (s.part part).area ((n - 0x100) % 64))

/-! ### Writing control registers -/

/-- The bits of a register that no field covers (spec R35, R45, R69, R126, R272). -/
def csrReserved (n : Nat) : W64 :=
  if n = 0x012 then BitVec.ofNat 64 (2 ^ 64 - 2 ^ 32)
  else if decide (0x018 ≤ n) && decide (n ≤ 0x01B) then BitVec.ofNat 64 (2 ^ 64 - 2 ^ 18)
  else if n = 0x020 then BitVec.ofNat 64 (2 ^ 64 - 2 ^ 3)
  else if n = 0x021 || n = 0x022 then BitVec.ofNat 64 (2 ^ 64 - 2 ^ 6)
  else if n = 0x038 then BitVec.ofNat 64 (2 ^ 64 - 2 ^ 34)
  else if n < 0x140 then 63
  else 0

/-- A register refuses a value: a reserved bit, a value a field reserves, a view's alignment (spec R45, R69, R126, R142). -/
def csrBadValue (n : Nat) (v : W64) : Bool :=
  v &&& csrReserved n ≠ 0 || (n = 0x020 && decide (4 < v.toNat)) || (n = 0x038 && bfld v 32 2 = 3)
    || (n = 0x018 && decide (v.toNat % 8 ≠ 0)) || (decide (0x019 ≤ n) && decide (n ≤ 0x01B) && decide (v.toNat % 256 ≠ 0))

/-- The strand with one of its registers written. -/
def Strand.csrSet (t : Strand) (n : Nat) (v : W64) : Strand :=
  match n with
  | 0x012 => { t with sch := { t.sch with waitspin := v.setWidth 32 } }
  | 0x018 => { t with views := { t.views with s := v.setWidth 18 } }
  | 0x019 => { t with views := { t.views with v := v.setWidth 18 } }
  | 0x01A => { t with views := { t.views with t := v.setWidth 18 } }
  | 0x01B => { t with views := { t.views with a := v.setWidth 18 } }
  | 0x020 => { t with fp := { t.fp with rm := v.setWidth 3 } }
  | 0x021 => { t with fp := { t.fp with flags := v.setWidth 6 } }
  | 0x022 => { t with fp := { t.fp with trapen := v.setWidth 6 } }
  | 0x038 => { t with trap := { t.trap with ret := v.setWidth 34 } }
  | _ => t

/-- A request area's register written: a write of cap takes the issue count as its origin (spec R272). -/
def State.csrAreaSet (s : State) (n : Nat) (v : W64) : State :=
  let x := (n - 0x100) % 64
  let a := s.area x
  let b : Area := if n < 0x140 then { a with base := v }
    else { a with cap := v.setWidth 32, origin := (s.ctx (6 * 4096 + x)).issued.setWidth 32 }
  { s with fab := { s.fab with areas := SMap.set {} s.fab.areas x b } }

/-- The result of a write form (spec R142). -/
def csrUpdate (op : Nat) (old a : W64) : W64 := if op = 0 then a else if op = 1 then old ||| a else old &&& ~~~a

/-- A form that names `cr.fp.flags` waits for the bounds of earlier V words (spec R142). -/
def Op.flagsWait (n : Nat) : Op Unit := do
  let now ← Op.see State.now
  let up ← Op.look fun t => t.landed now
  Op.stallIf (n = 0x021 && !up)

/-- A write form (spec R139, R142); flags that an earlier word of the bundle has raised count for `cr.fp.flags` (spec R72, R83). -/
def Op.csrWrite (op : Nat) (f : KForm) : Op Unit := do
  let n := f.csr.toNat
  let a ← Op.readS f.r 18
  Op.flagsWait n
  let old ← Op.see fun s => s.csr (if n = 0x021 then s.me else s.view) n
  let v := csrUpdate op old a
  Op.raiseIf (csrBadValue n v) (illegalField 18 6 a)
  if n < 0x100 then Op.onMe fun t => t.csrSet n v else Op.change fun s => s.csrAreaSet n v

/-- `CSRR` (spec R142). -/
def execCsrr (f : KForm) (s : State) : Host.Outcome State Fault Refusal :=
  runOp (do
    Op.flagsWait f.csr.toNat
    let v ← Op.see fun s => s.csr s.view f.csr.toNat
    Op.writeS f.r 18 v) s

/-- `CSRW` (spec R142). -/
def execCsrw (f : KForm) (s : State) : Host.Outcome State Fault Refusal := runOp (Op.csrWrite 0 f) s

/-- `CSRS` (spec R142). -/
def execCsrs (f : KForm) (s : State) : Host.Outcome State Fault Refusal := runOp (Op.csrWrite 1 f) s

/-- `CSRC` (spec R142). -/
def execCsrc (f : KForm) (s : State) : Host.Outcome State Fault Refusal := runOp (Op.csrWrite 2 f) s

/-! ### Traps and handlers -/

/-- `TRAP` (spec R140). -/
def execTrap (code : BitVec 16) (s : State) : Host.Outcome State Fault Refusal :=
  runOp (Op.raise { cls := 0x0B, code := code.toNat }) s

/-- `TRAPFENCE` (spec R129, R140). -/
def execTrapfence (s : State) : Host.Outcome State Fault Refusal :=
  runOp (do
    let now ← Op.see State.now
    let up ← Op.look fun t => t.landed now
    Op.stallIf (!up)
    let fl ← Op.look fun t => t.fp.flags
    let en ← Op.look fun t => t.fp.trapen
    Op.raiseIf (fl &&& en ≠ 0) { cls := 0x0A, code := (fl &&& en).toNat, aux0 := fl.setWidth 64 }
    Op.deliver fun _ => true) s

/-- A trap that is not precise: it stops the strand after its bundle, unless a precise one outranks it (spec R124, R130). -/
def Op.trapAfter (t : TrapInfo) : Op Unit := do
  let wi ← Op.see fun s => s.issue.wi
  let word ← Op.see fun s => s.issue.word
  let pos ← Op.see fun s => s.issue.pos
  Op.stopAfter (.trap { t with wi := wi, word := word } pos)

/-- `RFT` (spec R144, R148). -/
def execRft (s : State) : Host.Outcome State Fault Refusal :=
  runOp (do
    let t ← Op.look id
    if !t.id.handler || t.id.standIn then Op.trapAfter { cls := 0x0F, code := 0x01 }
    else do
      Op.onMe fun u =>
        { u with win := { u.win with ep := t.trap.shadowEp }, loop := t.trap.shadowLoop, cseg := 0
                 id := { u.id with handler := false } }
      Op.change fun s =>
        { s with issue := { s.issue with tgt := some (t.trap.ret.setWidth 32), twi := bfld t.trap.ret 32 2 } }) s

/-! ### Liveness, views, rotation -/

/-- A `PHINT` range is out of bounds (spec R141). -/
def phintBad (spad : Nat) (r : W64) : Bool :=
  bfld r 40 24 ≠ 0 || bfld r 0 20 % 64 ≠ 0 || bfld r 20 20 % 64 ≠ 0 || decide (spad * 1024 < bfld r 0 20 + bfld r 20 20)

/-- `PHINT` (spec R139, R141). -/
def execPhint (f : RForm) (s : State) : Host.Outcome State Fault Refusal :=
  runOp (do
    let a ← Op.readS f.a 18
    let b ← Op.readS f.b 12
    let c ← Op.readS f.c 6
    let spad ← Op.look fun t => t.fr.spad
    Op.raiseIf (bfld a 32 32 ≠ 0) (illegalField 18 6 a)
    Op.raiseIf (phintBad spad b) (illegalField 12 6 b)
    Op.raiseIf (phintBad spad c) (illegalField 6 6 c)
    Op.onMe fun t => { t with sch := { t.sch with phA := a, phB := b, phC := c } }) s

/-- `VIEW` (spec R45, R143): the offending field is the base of the word. -/
def execView (v : BitVec 2) (base : BitVec 18) (s : State) : Host.Outcome State Fault Refusal :=
  runOp (do
    Op.raiseIf (csrBadValue (0x018 + v.toNat) (base.setWidth 64)) (illegalField 0 18 0)
    Op.onMe fun t => t.csrSet (0x018 + v.toNat) (base.setWidth 64)) s

/-- The dead units of the region read zero from here on (spec R143). -/
def Strand.zeroDead (t : Strand) : Strand :=
  { t with regs := t.rot.dead.foldl (fun m o => SMap.set 0 m (t.rawUnit (t.rot.base + o)) 0) t.regs }

/-- `ROTCFG` (spec R49, R50, R139, R143). -/
def execRotcfg (f : RForm) (s : State) : Host.Outcome State Fault Refusal :=
  runOp (do
    let a ← Op.readS f.a 18
    let b ← Op.readS f.b 12
    let c ← Op.readS f.c 6
    Op.raiseIf (bfld a 10 54 ≠ 0) (illegalField 18 6 a)
    Op.raiseIf (bfld b 10 54 ≠ 0) (illegalField 12 6 b)
    Op.raiseIf (bfld c 10 54 ≠ 0) (illegalField 6 6 c)
    let g ← Op.look fun t => t.win.f
    Op.raiseIf (decide (b.toNat < c.toNat)) (illegalField 6 6 c)
    Op.raiseIf (b ≠ 0 && decide (g < a.toNat + b.toNat)) (illegalField 12 6 b)
    Op.onMe fun t => { t.zeroDead with rot := { base := a.toNat, size := b.toNat, depth := c.toNat } }) s

/-- The storage units that a rotation by `k` makes dead: their name offset goes from below the depth to the depth or above
(spec R49, R50). -/
def Rot.dying (r : Rot) (k : Nat) : List Nat :=
  ((List.range r.depth).filter fun d => decide (r.depth ≤ (d + k) % r.size)).map fun d => (d + r.pos) % r.size

/-- The region rotated (spec R49, R50). -/
def Rot.turn (r : Rot) (k : Nat) : Rot :=
  { r with pos := (r.pos + r.size - k) % r.size, dead := r.dead ++ (r.dying k).filter fun o => !r.dead.contains o }

/-- `ROTATE` (spec R49, R50, R143): the latches that hold bytes of a unit now dead are invalidated (spec R52). -/
def execRotate (k : BitVec 11) (s : State) : Host.Outcome State Fault Refusal :=
  runOp (do
    let t ← Op.look id
    if t.rot.size = 0 then pure ()
    else do
      Op.raiseIf (k = 0 || decide (t.rot.size < k.toNat)) (illegalField 0 11 0)
      Op.onMe fun u => { u with rot := u.rot.turn k.toNat }
      Op.change fun s =>
        (t.rot.dying k.toNat).foldl (fun r o => r.dropLatchAt s.cur (.reg (t.rawUnit (t.rot.base + o)) 0 256)) s) s

/-! ### IDLE, SYNCI and the scratchpad -/

/-- The commands that a strand issued and that are not complete (spec R145). -/
def State.cmdsOf (s : State) (sid : Nat) : List (Nat × Nat) :=
  ((s.copies.filter fun c => c.iss.isStrand sid).map fun c => (c.ctx, c.seq))
    ++ ((s.cube.cmds.filter fun c => c.iss.isStrand sid && c.seq ≠ 0).map fun c => (4096 + c.ctx, c.seq))
    ++ ((s.fab.cmds.filter fun c => c.sid = sid).map fun c => (c.ctx, c.seq))
    ++ (s.rlcs.flatMap fun e => (e.2.queue.filter fun r => r.iss.isStrand sid).map fun r => (3 * 4096 + e.1, r.seq))
    ++ (s.slots.filter fun e => (e.2.st = 4 || e.2.st = 5) && e.2.armer = some sid).map fun e => (recvCtx e.1, e.2.arm)

/-- `IDLE` (spec R145): a pre-emption that is already requested ends it at once. -/
def execIdle (s : State) : Host.Outcome State Fault Refusal :=
  runOp (do
    let cs ← Op.see fun s => s.cmdsOf s.cur
    Op.onMe fun t => { t with sch := { t.sch with idle := !t.sch.preempt, idleOn := cs } }) s

/-- `SYNCI` (spec R103, R146): earlier stores have performed; packets fetched later hold memory as it stands. -/
def execSynci (s : State) : Host.Outcome State Fault Refusal :=
  runOp (do
    Op.earlier fun a => a.q ≠ .load
    let m ← Op.see fun s => s.mem.cells
    Op.onMe fun t => { t with fetched := m }) s

/-- The range of `SPALLOC` and `SPFREE` (spec R139, R147). -/
def Op.spadRange (f : RForm) : Op (W64 × W64) := do
  let a ← Op.readS f.a 18
  let b ← Op.readS f.b 12
  let k ← Op.look fun t => t.fr.spad
  Op.raiseIf (a.toNat % 8 ≠ 0) (illegalField 18 6 a)
  Op.raiseIf (b.toNat % 8 ≠ 0 || decide (b.toNat < 8) || decide (k * 1024 < a.toNat + b.toNat)) (illegalField 12 6 b)
  pure (a, b)

/-- `SPALLOC` (spec R147). -/
def execSpalloc (f : RForm) (s : State) : Host.Outcome State Fault Refusal :=
  runOp (do
    let (a, b) ← Op.spadRange f
    let _ ← Op.enqueue .both (.spalloc a.toNat b.toNat) none false 3 false) s

/-- `SPFREE` (spec R147). -/
def execSpfree (f : RForm) (s : State) : Host.Outcome State Fault Refusal :=
  runOp (do
    let (a, b) ← Op.spadRange f
    let _ ← Op.enqueue .both (.spfree a.toNat b.toNat) none false 3 false) s

end Sys2Proof.Machine
end

