-- ==== Sys2Proof/Machine/Cube.lean ====
section
/-! DEFINITION. The cube: its forms, the computation of its commands with its stops and restarts, fills, drains, and Steady
(spec R228 to R258, R73 to R79). -/

namespace Sys2Proof.Machine

/-! ### Slots, faces and traps -/

/-- The place of element (i, j) of a slot (spec R228). -/
def slotKey (slot i j : Nat) : Nat := slot * 16384 + 128 * i + j

/-- Element (i, j) of a slot (spec R228). -/
def State.slotAt (s : State) (slot i j : Nat) : Nat := SMap.get 0 s.cube.slots (slotKey slot i j)

/-- A slot zeroed (spec R246). -/
def State.slotZero (s : State) (slot : Nat) : State :=
  { s with cube := { s.cube with slots := s.cube.slots.filter fun e => e.1 / 16384 ≠ slot } }

/-- The line index of a face byte: face 0 is A, 1 is B (spec R228). -/
def faceLine (layer face off : Nat) : Nat := (2 * layer + face) * 65536 + off / 64

/-- A trap of class `CUBE` (spec R256). -/
def cubeTrap (code : Nat) : TrapInfo := { cls := 0x0D, code := code }

/-- A cube command of a context by its number. -/
def State.cubeCmd (s : State) (ctx seq : Nat) : Option CubeCmd := s.cube.cmds.find? fun x => x.ctx = ctx && x.seq = seq

/-- A cube command replaced. -/
def State.setCubeCmd (s : State) (c : CubeCmd) : State :=
  { s with cube := { s.cube with cmds := s.cube.cmds.map fun x => if x.ctx = c.ctx && x.seq = c.seq && c.seq ≠ 0 then c else x } }

/-- A slot code names a slot of this part (spec R230, R246, R248). -/
def State.slotHere (s : State) (src : Nat) : Bool := !s.cubeOff && (decide (src < 0x40) || decide (nfld src 3 3 < s.nl))

/-- An engine trap of a command goes to its issuer: to a live strand it is pending; for a retired one a handler strand is made,
or Mandrel reports (spec R129). -/
def State.engineTrap (s : State) (iss : Issuer) (ctx seq : Nat) (i : TrapInfo) : State :=
  match iss with
  | .node _ => s
  | .strand sid id fr =>
    let alive : Bool := match s.strand? sid with
      | some t => decide (t.id.state ≠ 7)
      | none => false
    if alive then
      s.onStrand sid fun t => { t with trap := { t.trap with pending := t.trap.pending ++ [{ ctx := ctx, seq := seq, info := i }] } }
    else s.orphanTrap id fr i

/-! ### Shadow state -/

/-- `CNEST` (spec R242). -/
def execCnest (f : LForm) (s : State) : Host.Outcome State Fault Refusal :=
  runOp (do
    let a ← Op.readS f.a 10
    Op.hint f.ru f.pb [(false, f.a)]
    let r ← Op.loadNow (lineVa a) 64
    match r with
    | .error l => Op.integrity l
    | .ok v => do
      let d : Line := BitVec.ofNat 512 v
      Op.raiseIf (!(nestOk d)) (controlTrap 0x04)
      Op.onMe fun t => { t with shNest := d }) s

/-- A descriptor from its fields (spec R233). -/
def descOf (typ table layout : Nat) (face : Bool) (rstride sstride base sva : Nat) : BitVec 256 :=
  BitVec.ofNat 256
    (typ * 2 ^ 4 + table * 2 ^ 9 + layout * 2 ^ 13 + b2n face * 2 ^ 15 + rstride % 2 ^ 32 * 2 ^ 64 + sstride % 2 ^ 32 * 2 ^ 96
      + base % 2 ^ 64 * 2 ^ 128 + sva % 2 ^ 64 * 2 ^ 192)

/-- `CDESC` (spec R233, R243). -/
def execCdesc (f : LForm) (s : State) : Host.Outcome State Fault Refusal :=
  runOp (do
    let ss ← Op.readS f.d 16
    let base ← Op.readS f.a 10
    let rs ← Op.readS f.b 4
    let sva ← Op.readS f.c 54
    Op.hint f.ru f.pb [(false, f.d), (false, f.a), (false, f.b), (false, f.c)]
    let layout := bfld f.mod 14 2
    let face := bbit f.mod 13
    Op.raiseIf (base.toNat % 64 ≠ 0) (illegalField 10 6 base)
    Op.raiseIf (face && decide (0x380000 ≤ base.toNat)) (illegalField 10 6 base)
    Op.raiseIf (decide (2 ^ 32 ≤ rs.toNat)) (illegalField 4 6 rs)
    Op.raiseIf (decide (2 ^ 32 ≤ ss.toNat)) (illegalField 16 6 ss)
    Op.raiseIf (rs.toNat % 64 ≠ 0) (illegalField 4 6 rs)
    Op.raiseIf (layout = 2 && decide (sva.toNat % 4 ≠ 0)) (illegalField 54 6 sva)
    Op.raiseIf (layout = 2 && decide (ss.toNat % 4 ≠ 0)) (illegalField 16 6 ss)
    Op.raiseIf (layout ≠ 2 && f.c ≠ 60) (illegalField 54 6 sva)
    Op.raiseIf (layout ≠ 2 && f.d ≠ 60) (illegalField 16 6 ss)
    let d := descOf (bfld f.mod 17 5) (bfld f.mod 9 4) layout face rs.toNat ss.toNat base.toNat sva.toNat
    Op.onMe fun t => if bbit f.mod 16 then { t with shB := d } else { t with shA := d }) s

/-! ### Issue -/

/-- The formats a cube operand may resolve to (spec R233, R235). -/
def tyCube : List Nat := [0, 4, 8, 18, 19, 20, 21, 22, 23, 24]

/-- A descriptor whose LADDER code is resolved at issue (spec R235). -/
def Op.resolveDesc (d : BitVec 256) : Op (BitVec 256) := do
  if dLayout d = 1 || !(isLadder (dType d)) then pure d
  else do
    let r ← Op.see fun s => s.resolve (dType d)
    match r with
    | none => Op.raise { cls := 0x04, code := 0 }
    | some t => if tyCube.contains t then pure (bset d 4 5 t) else Op.raise { cls := 0x04, code := 0 }

/-- A cube command issues: it waits for room, stands in both queues, takes its number and its snapshot (spec R229, R236,
R252). -/
def Op.cubeIssue (ctx : Nat) (kind : CubeKind) (slot : Nat) (d : Spec) (nest : Line) (a b : BitVec 256) : Op Unit := do
  let full ← Op.see fun s => decide (64 ≤ (s.cubeCmdsOf ctx).length)
  Op.stallIf full
  let gate ← Op.enqueue .both .cmd none false 3 false
  let iss ← Op.see State.issuer
  let pasid ← Op.look fun t => t.id.pasid.toNat
  let tabs ← Op.see fun s => s.cube.active
  let cmd : CubeCmd :=
    { ctx := ctx, seq := 0, iss := iss, gate := some gate, pasid := pasid, kind := kind, slot := slot, nest := nest, dA := a,
      dB := b, tables := tabs }
  let n ← (fun s => .ok (s.cubeQueue cmd) : Op Nat)
  Op.writeX d 16 (BitVec.ofNat 64 n)

/-- `CUBE.MM` and `CPLANE` issue (spec R244). -/
def Op.cubeMul (plane : Bool) (ctx slot maskOrLayer wc m n k : Nat) (d : Spec) : Op Unit := do
  let nest ← Op.look fun t => t.shNest
  let a0 ← Op.look fun t => t.shA
  let b0 ← Op.look fun t => t.shB
  Op.raiseIf (!(nestOk nest)) (cubeTrap 0x02)
  let a ← Op.resolveDesc a0
  let b ← Op.resolveDesc b0
  let r ← Op.see fun s => s.cubeCheck nest a b plane maskOrLayer wc m n k
  match r with
  | .error (cls, code) => Op.raise { cls := cls, code := code }
  | .ok (ls, w) => do
    let red ← Op.see fun s => bbit s.cube.mode 8 && !plane
    Op.cubeIssue ctx (.mm ls plane red w m n k) slot d nest a b

/-- `CUBE.MM` (spec R241, R244). -/
def execCubeMm (f : LForm) (s : State) : Host.Outcome State Fault Refusal :=
  runOp (Op.cubeMul false (bfld f.b 0 3) (bfld f.a 0 5) (bfld f.mod 14 8) (bfld f.b 4 2) (bfld f.mod 7 7 + 1)
    (bfld f.mod 0 7 + 1) (f.c.toNat + 1) f.d) s

/-- `CPLANE` (spec R241, R244). -/
def execCplane (f : LForm) (s : State) : Host.Outcome State Fault Refusal :=
  runOp (Op.cubeMul true (bfld f.b 0 3) (0x40 + bfld f.mod 14 3 * 8 + bfld f.a 0 3) (bfld f.mod 14 3) (bfld f.b 4 2)
    (bfld f.mod 7 7 + 1) (bfld f.mod 0 7 + 1) (f.c.toNat + 1) f.d) s

/-- The layers a command computes on. -/
def CubeCmd.layers (c : CubeCmd) : List Nat :=
  match c.kind with
  | .mm ls _ _ _ _ _ _ => ls
  | _ => []

/-- `CMODE` (spec R245). -/
def execCmode (f : LForm) (s : State) : Host.Outcome State Fault Refusal :=
  runOp (do
    let pl := bbit f.mod 13
    let ls ← Op.see fun s => s.maskLayers (bfld f.mod 14 8)
    let busy ← Op.see fun s => s.cube.cmds.any fun c => c.layers.any fun l => ls.contains l && s.planeOf l ≠ pl
    Op.stallIf busy
    Op.change fun s =>
      let m := ls.foldl (fun (x : W64) l => bset x l 1 (b2n pl)) s.cube.mode
      { s with cube := { s.cube with mode := if pl then m else bset m 8 1 (b2n (bbit f.mod 12)) } }) s

/-! ### Order of commands -/

/-- The slot a command uses. -/
def CubeCmd.slotUse (c : CubeCmd) : Option Nat :=
  match c.kind with
  | .fill _ _ _ _ _ => none
  | _ => some c.slot

/-- The faces a command reads: layer and face. -/
def CubeCmd.facesRead (c : CubeCmd) : List (Nat × Bool) :=
  match c.kind with
  | .mm ls _ _ _ _ _ _ =>
    (if dFace c.dA then ls.map fun l => (l, false) else []) ++ (if dFace c.dB then ls.map fun l => (l, true) else [])
  | _ => []

/-- The face a command writes. -/
def CubeCmd.faceWritten (c : CubeCmd) : List (Nat × Bool) :=
  match c.kind with
  | .fill _ _ _ fb l => [(l, fb)]
  | _ => []

/-- A joined command, or a plane command of a layer: the queue it starts in (spec R232). -/
def CubeCmd.queueOf (c : CubeCmd) : Option Nat :=
  match c.kind with
  | .mm ls plane _ _ _ _ _ => if plane then some (1 + ls.headD 0) else some 0
  | _ => none

/-- Two commands act in issue order: they share a slot or a face, or a queue (spec R232, R252). -/
def cubeConflict (d c : CubeCmd) : Bool :=
  (d.slotUse.isSome && d.slotUse = c.slotUse) || (d.queueOf.isSome && d.queueOf = c.queueOf)
    || d.faceWritten.any (fun x => (c.facesRead ++ c.faceWritten).contains x)
    || d.facesRead.any fun x => c.faceWritten.contains x

/-- An earlier command keeps a later one from starting (spec R232, R252). -/
def cubeBlocks (d c : CubeCmd) : Bool :=
  if d.st ≠ 1 && d.seq ≠ 0 then
    if c.seq ≠ 0 && d.ctx = c.ctx then true
    else !(d.queueOf.isSome && c.seq ≠ 0) && cubeConflict d c
  else !d.sent && cubeConflict d c

/-- The commands before a given one in issue order. -/
def cmdsBefore (c : CubeCmd) : List CubeCmd → List CubeCmd
  | [] => []
  | x :: t => if x.ctx = c.ctx && x.seq = c.seq && x.slot = c.slot then [] else x :: cmdsBefore c t

/-- A command may start, or go on (spec R252). -/
def State.cubeReady (s : State) (c : CubeCmd) : Bool :=
  c.st = 1 && s.mayStart c.iss c.gate && (cmdsBefore c s.cube.cmds).all fun d => !(cubeBlocks d c)

/-- The command of a context that goes on next: the first in issue order that may. -/
def State.cubeNext (s : State) (ctx : Nat) : Option CubeCmd :=
  s.cube.cmds.find? fun c => c.ctx = ctx && c.seq ≠ 0 && s.cubeReady c

/-- Carries out the `CZERO`s whose turn in their slot has come (spec R246). -/
def State.cubeZeros (s : State) : State :=
  s.cube.cmds.foldl (fun t c =>
    if c.seq = 0 && t.cube.cmds.contains c && (cmdsBefore c t.cube.cmds).all (fun d => !(cubeBlocks d c)) then
      ({ t with cube := { t.cube with cmds := t.cube.cmds.erase c } } : State).slotZero c.slot
    else t) s

/-- A command completes, with its node, whose event names a class and code; the slot's next `CZERO`s and stopped strands go on
(spec R30, R217, R246, R342). -/
def State.cubeEnd (s : State) (c : CubeCmd) (fail : Option (Nat × Nat)) (cls code : Nat) : State :=
  let s1 : State := { s with cube := { s.cube with cmds := s.cube.cmds.filter fun x => !(x.ctx = c.ctx && x.seq = c.seq) } }
  let s2 := match c.iss, fail with
    | .node n, some _ => s1.nodeFail n cls code (4096 + c.ctx) c.seq
    | _, _ => s1
  ((s2.finish (4096 + c.ctx) c.seq fail c.flags).cubeZeros.settleAll).fabTick

/-- The trap class of a failure that a node's event names, by the kind in the error word; no class is one of an undeliverable line, so that it is a
free value (spec R124, R220, R342; log entry 66). -/
def failClass (free : Nat) (kind : Nat) : Nat :=
  if kind = 1 then 0x08 else if kind = 2 then 0x09 else if kind = 4 then 0x0C else if kind = 5 then 0x05 else bfld (Config.freeVec free) 0 8

/-- A fill or a drain completes (spec R248, R342). -/
def State.moveEnd (s : State) (c : CubeCmd) (fail : Option (Nat × Nat)) : State :=
  match fail with
  | none => s.cubeEnd c none 0 0
  | some (k, d) => ({ s with free := s.free + 1 } : State).cubeEnd c fail (failClass s.free k) d

/-! ### Loading -/

/-- Why a row or a scale does not load: a stop with its `CUBE` code (or 0x40 + `FORMAT` code), `MEMORY` code and VA, and the state that the walk
left; a page; a busy frame (spec R184, R255). -/
inductive LoadStop where
  | stop (code mcode va : Nat) (s : State)
  | page (mcode va : Nat)
  | frozen

/-- A load of `n` bytes at a VA (spec R255). -/
def State.cubeLoad (s : State) (pasid va n : Nat) : Except LoadStop (Nat × State) :=
  if !(s.isLocal va) then .error (.stop 0x03 0x04 va s)
  else
    match s.translate pasid va n .read with
    | .error (.pageIn c v) => .error (.page c v)
    | .error .frozen => .error .frozen
    | .error (.mem c v) => .error (.stop 0x03 c v s)
    | .error (.parcel _ _) => .error (.stop 0x06 0 va s)
    | .ok (segs, s1) =>
      if (s1.mem.badSeg segs).isSome then .error (.stop 0x04 0 va s1) else .ok (s1.mem.gather segs, s1)

/-- The format of an SD block: its type and table; none where unassigned (spec R67). -/
def sdFormat (code : Nat) : Option (Nat × Nat) :=
  if code = 1 then some (0, 0) else if code = 2 then some (4, 0) else if code = 3 then some (20, 0)
  else if code = 4 then some (21, 0) else if code = 5 then some (23, 0) else if code = 6 then some (22, 0)
  else if code = 7 then some (8, 0) else if code = 8 then some (19, 0) else if code = 9 then some (18, 0)
  else if 0xC0 ≤ code && code ≤ 0xCF then some (24, code - 0xC0) else none

/-- The check of a row's format as it loads (spec R68, R255). -/
def sdCheck (d : BitVec 256) (w va row : Nat) (s : State) : Except LoadStop Unit :=
  if dLayout d ≠ 1 then .ok ()
  else
    match sdFormat (row % 256) with
    | none => .error (.stop 0x41 0 va s)
    | some (t, _) => if opWidth t = w then .ok () else .error (.stop 0x42 0 va s)

/-- A row of an operand for step `st` on a layer (spec R234). -/
def State.loadRow (s : State) (c : CubeCmd) (d : BitVec 256) (faceB : Bool) (layer w cl i st : Nat) : Except LoadStop (Nat × State) :=
  let a := rowAddr d (nestOffAt c.nest (if faceB then 1 else 0) c.iter) i cl st
  let r : Except LoadStop (Nat × State) :=
    if dFace d then
      let l := faceLine layer (b2n faceB) a.toNat
      if s.cube.faceBad.contains l then .error (.stop 0x04 0 a.toNat s)
      else .ok ((SMap.get 0 s.cube.faces l).toNat, s)
    else s.cubeLoad c.pasid (wrapN 64 a) 64
  match r with
  | .error e => .error e
  | .ok (v, s1) =>
    match sdCheck d w (wrapN 64 a) v s1 with
    | .error e => .error e
    | .ok () => .ok (v, s1)

/-- A scale of a row for a step (spec R66, R234). -/
def State.loadScale (s : State) (c : CubeCmd) (d : BitVec 256) (j w i st : Nat) : Except LoadStop (Nat × State) :=
  let o := wrapN 64 (nestOffAt c.nest j c.iter)
  s.cubeLoad c.pasid ((dSva d + i * dSstride d + 4 * ((o + 64 * st) / (32 * w))) % 2 ^ 64) 4

/-- A thing to load: step, layer, operand (0 A, 1 B, 2 A scale, 3 B scale), row (spec R250). -/
abbrev LoadItem := Nat × Nat × Nat × Nat

/-- The loads of a pass, in the order the model makes them (log entry 30). -/
def CubeCmd.items (c : CubeCmd) (ls : List Nat) (m n k : Nat) : List LoadItem :=
  (List.range ls.length).flatMap fun r =>
    let st := c.pass * ls.length + r
    let l := ls.getD r 0
    let of (op cnt : Nat) : List LoadItem := (List.range cnt).map fun i => (st, l, op, i)
    if k ≤ st then []
    else of 0 m ++ of 1 n ++ (if dLayout c.dA = 2 then of 2 m else []) ++ (if dLayout c.dB = 2 then of 3 n else [])

/-- Loads one item. -/
def State.loadItem (s : State) (c : CubeCmd) (w cl : Nat) (x : LoadItem) : Except LoadStop (Nat × State) :=
  let (st, l, op, i) := x
  if op = 0 then s.loadRow c c.dA false l w cl i st
  else if op = 1 then s.loadRow c c.dB true l w cl i st
  else if op = 2 then s.loadScale c c.dA 0 w i st
  else s.loadScale c c.dB 1 w i st

/-- Loads the items of a pass that are not staged yet. Answers the values staged, the state, and the item and reason of a stop. -/
def State.loadAll (c : CubeCmd) (w cl : Nat) : List LoadItem → List Nat → State → List Nat × State × Option (LoadItem × LoadStop)
  | [], acc, s => (acc, s, none)
  | x :: t, acc, s =>
    match s.loadItem c w cl x with
    | .error (.stop code mcode va s1) => (acc, s1, some (x, .stop code mcode va s1))
    | .error e => (acc, s, some (x, e))
    | .ok (v, s1) => State.loadAll c w cl t (acc ++ [v]) s1

/-! ### Computing -/

/-- The lanes of a row as values; none for a lane past the payload of an SD block (spec R65, R67, R68, R74). -/
def rowVals (d : BitVec 256) (tables : SMap (BitVec 256)) (w row : Nat) : List (Option FVal) :=
  if dLayout d = 1 then
    let (t, tb) := (sdFormat (row % 256)).getD (0, 0)
    (List.range (512 / w)).map fun i =>
      if 496 / w ≤ i then none else some (unpackVal (SMap.get 0 tables tb).toNat t (lane w (row / 65536) i))
  else (List.range (512 / w)).map fun i => some (unpackVal (SMap.get 0 tables (dTable d)).toNat (dType d) (lane w row i))

/-- The scale of a row: none for a zero block, a NaN for a NaN block (spec R66, R67, R76). -/
def rowScale (d : BitVec 256) (row sc : Nat) : Option FVal :=
  if dLayout d = 1 then some (.fin false 1 (sval 8 (row / 256 % 256)))
  else if dLayout d = 2 then
    let e := nfld sc 16 8
    if e = 0 then none
    else if e = 255 then some (.nan false)
    else some (.fin false (65536 + sc % 65536) ((e : Int) - 127 - 16))
  else some (.fin false 1 0)

/-- A sum of two values rounded to `f32`, with the flags so far (spec R74, R75). -/
def addF32 (x y : FVal × FlagSet) : FVal × FlagSet :=
  let (z, g) := roundOp {} 17 (addExact false x.1 y.1)
  (unpackVal 0 17 z, x.2 ||| y.2 ||| g)

/-- One level of the tree: neighbours added (spec R75). -/
def pairUp : List (FVal × FlagSet) → List (FVal × FlagSet)
  | x :: y :: t => addF32 x y :: pairUp t
  | l => l

/-- The tree sum of a list of products, `k` levels (spec R75). -/
def tree32 : Nat → List (FVal × FlagSet) → FVal × FlagSet
  | 0, l => l.headD (.fin false 0 0, 0)
  | k + 1, l => tree32 k (pairUp l)

/-- The products of two rows on the floating path (spec R68, R74). -/
def products (a b : List (Option FVal)) : List (FVal × FlagSet) :=
  List.zipWith (fun x y => match x, y with
    | some u, some v => mulExact u v
    | _, _ => (.fin false 0 0, 0)) a b

/-- The result of a step on the floating path (spec R66, R76). -/
def stepFloat (c : CubeCmd) (w ra rb sa sb : Nat) : FVal × FlagSet :=
  let fa := rowScale c.dA ra sa
  let fb := rowScale c.dB rb sb
  let isN (x : Option FVal) : Bool := match x with
    | some v => v.isNaN
    | none => false
  if isN fa || isN fb then (.nan false, fNV)
  else
    match fa, fb with
    | some u, some v =>
      let sum := tree32 7 (products (rowVals c.dA c.tables w ra) (rowVals c.dB c.tables w rb))
      if dLayout c.dA = 0 && dLayout c.dB = 0 then sum
      else
        let (t, g) := roundOp {} 17 (mulExact u v)
        let (z, h) := roundOp {} 17 (mulExact sum.1 (unpackVal 0 17 t))
        (unpackVal 0 17 z, sum.2 ||| g ||| h)
    | _, _ => (.fin false 0 0, 0)

/-- The value of a lane of an integer format (spec R57, R74). -/
def intLane (t w x : Nat) : Int := if t = 4 then (x : Int) else sval w x

/-- The result of a step on the integer path, modulo 2^32 (spec R74, R75). -/
def stepInt (c : CubeCmd) (w ra rb : Nat) : Nat :=
  wrapN 32 ((List.range (512 / w)).foldl (fun (acc : Int) i =>
    acc + intLane (dType c.dA) w (lane w ra i) * intLane (dType c.dB) w (lane w rb i)) 0)

/-- The command runs on the integer path (spec R74). -/
def CubeCmd.isInt (c : CubeCmd) : Bool :=
  dLayout c.dA = 0 && dLayout c.dB = 0 && decide (dType c.dA ≤ 8) && decide (dType c.dB ≤ 8)

/-- A partial sum: a word on the integer path, or a value with its flags. -/
def addStep (int : Bool) (x y : Nat × FlagSet) : Nat × FlagSet :=
  if int then ((x.1 + y.1) % 2 ^ 32, x.2 ||| y.2)
  else
    let (z, g) := roundOp {} 17 (addExact false (unpackVal 0 17 x.1) (unpackVal 0 17 y.1))
    (z, x.2 ||| y.2 ||| g)

/-- The result of a step as a word. -/
def stepWord (c : CubeCmd) (w ra rb sa sb : Nat) : Nat × FlagSet :=
  if c.isInt then (stepInt c w ra rb, 0)
  else
    let (v, g) := stepFloat c w ra rb sa sb
    ((roundTo {} 17 v).1, g)

/-- The sum of a pass for element (i, j), layers ascending; `vals` are the values staged (spec R77). -/
def passSum (c : CubeCmd) (w m n cnt : Nat) (vals : List Nat) (i j : Nat) : Option (Nat × FlagSet) :=
  let sa := if dLayout c.dA = 2 then m else 0
  let block := m + n + sa + (if dLayout c.dB = 2 then n else 0)
  (List.range cnt).foldl (fun (acc : Option (Nat × FlagSet)) r =>
    let at_ (k : Nat) : Nat := vals.getD (r * block + k) 0
    let x := stepWord c w (at_ i) (at_ (m + j)) (at_ (m + n + i)) (at_ (m + n + sa + j))
    match acc with
    | none => some x
    | some p => some (addStep c.isInt p x)) none

/-- A pass added to its slot; answers the flags (spec R77, R78). -/
def State.addPass (s : State) (c : CubeCmd) (w m n cnt : Nat) (vals : List Nat) : State × FlagSet :=
  (List.range (m * n)).foldl (fun (acc : State × FlagSet) e =>
    let i := e / n
    let j := e % n
    match passSum c w m n cnt vals i j with
    | none => acc
    | some p =>
      let (z, g) := addStep c.isInt (acc.1.slotAt c.slot i j, 0) p
      ({ acc.1 with cube := { acc.1.cube with slots := SMap.set 0 acc.1.cube.slots (slotKey c.slot i j) z } }, acc.2 ||| g)) (s, 0)

/-! ### Runs of a command -/

/-- How a run of a command ends: it completes, stops with a trap, waits for a page, or makes no progress. -/
inductive RunEnd where
  | done (c : CubeCmd) (s : State)
  | stopped (c : CubeCmd) (s : State)
  | waits (c : CubeCmd) (va : Nat) (s : State)
  | held (c : CubeCmd) (s : State)

/-- A command stopped at a load (spec R250, R255). -/
def CubeCmd.stopAt (c : CubeCmd) (x : LoadItem) (staged : List Nat) (code mcode va : Nat) : CubeCmd :=
  { c with st := 2, code := code, mcode := mcode, step := x.1, operand := x.2.2.1, row := x.2.2.2, staged := staged, fva := va }

/-- Runs a command pass by pass; `mism` counts the passes before a redundant mismatch, none for sound hardware (spec R239,
R255). -/
def State.cubeRun (ls : List Nat) (w m n k : Nat) : Nat → Option Nat → CubeCmd → State → RunEnd
  | 0, _, c, s => .done c s
  | fuel + 1, mism, c, s =>
    let cl := ls.length
    let items := c.items ls m n k
    match State.loadAll c w cl (items.drop c.staged.length) c.staged s with
    | (acc, s1, some (x, .stop code mcode va _)) =>
      .stopped (c.stopAt x acc code mcode va) (s1.nodeSeen (s.partOf c.iss) c.pasid va mcode)
    | (acc, s1, some (x, .page mcode va)) => .waits { c.stopAt x acc 0 mcode va with st := 3 } va s1
    | (acc, s1, some (_, .frozen)) => .held { c with staged := acc } s1
    | (acc, s1, none) =>
      if mism = some 0 then
        .stopped { c with st := 2, code := 0x05, mcode := 0, step := c.pass * cl, operand := 0, row := 0, staged := acc, fva := 0 } s1
      else
        let (s2, g) := s1.addPass c w m n (min cl (k - c.pass * cl)) acc
        let last := decide (k ≤ (c.pass + 1) * cl)
        let c1 : CubeCmd :=
          { c with flags := c.flags ||| g, staged := [], step := 0, row := 0, operand := 0
                   pass := if last then 0 else c.pass + 1, iter := if last then c.iter + 1 else c.iter }
        State.cubeRun ls w m n k fuel (mism.map (· - 1)) c1 s2

/-- The passes of a tile operation. -/
def passCount (k cl : Nat) : Nat := ceilDiv k (max cl 1)

/-- The passes a command has still to run. -/
def CubeCmd.left (c : CubeCmd) (cl k : Nat) : Nat := nestCount c.nest * passCount k cl - (c.iter * passCount k cl + c.pass)

/-- The trap of a stop (spec R256). -/
def CubeCmd.trapOf (c : CubeCmd) : TrapInfo :=
  let ix := nestIdx c.nest 6 0 c.iter
  { cls := if 0x40 ≤ c.code then 0x07 else 0x0D, code := c.code % 0x40, va := BitVec.ofNat 64 c.fva,
    aux0 := BitVec.ofNat 64 c.seq,
    aux1 := BitVec.ofNat 64 ((4096 + c.ctx) * 2 ^ 48 + ix.getD 2 0 % 2 ^ 16 * 2 ^ 32 + ix.getD 1 0 % 2 ^ 16 * 2 ^ 16
      + ix.getD 0 0 % 2 ^ 16) }

/-- A command stops: its issuer's trap waits for a delivery point; a node's command completes as if abandoned (spec R129, R255,
R342). -/
def State.cubeStopped (s : State) (c : CubeCmd) : State :=
  match c.iss with
  | .strand _ _ _ => (s.setCubeCmd c).engineTrap c.iss (4096 + c.ctx) c.seq c.trapOf
  | .node _ => (s.setCubeCmd c).cubeEnd c (some (6, c.code)) c.trapOf.cls c.trapOf.code

/-- A command that waits for a page raises the page-in event (spec R186, R255). -/
def State.cubeWaits (s : State) (c : CubeCmd) (va : Nat) : State :=
  (s.pageInEvent (s.partOf c.iss) c.pasid va c.mcode).setCubeCmd c

/-! ### Fills and drains -/

/-- Plans one line of a fill (spec R247). -/
def Plan.fillLine (p : Plan) (c : CubeCmd) (va off layer face i : Nat) : Plan :=
  if p.page.isSome || p.frozen then p
  else
    match p.st.moveRead (p.st.partOf c.iss) 0 0 c.pasid [] 0 ((va + 64 * i) % 2 ^ 64) 64 with
    | .error x => p.stop x
    | .ok (_, v, s1) =>
      { p with st := s1, pieces := p.pieces ++ [{ src := [], space := 4, addr := faceLine layer face (off + 64 * i), len := 64, val := v }] }

/-- A face line written with a good check (spec R193, R247). -/
def State.putFace (s : State) (l v : Nat) : State :=
  { s with cube := { s.cube with faces := SMap.set 0 s.cube.faces l (BitVec.ofNat 512 v), faceBad := s.cube.faceBad.filter (· ≠ l) } }

/-- Plans one row of a drain (spec R248). -/
def Plan.drainRow (p : Plan) (c : CubeCmd) (base stride space n : Nat) (units : List Nat) (i : Nat) : Plan :=
  let row := (List.range n).foldl (fun a j => a + p.st.slotAt c.slot i j % 2 ^ 32 * 2 ^ (32 * j)) 0
  let d := (base + i * stride) % 2 ^ 64
  (lineCut (4 * n + 1) 0 d (4 * n)).foldl (fun (q : Plan) x =>
    if q.page.isSome || q.frozen then q
    else
      match q.st.movePlace (q.st.partOf c.iss) c.iss.spad c.pasid units space ((d + x.1) % 2 ^ 64) x.2 with
      | .error e => q.stop e
      | .ok ((sp, a), s1) =>
        q.put (q.st.partOf c.iss) c.iss.sid { src := [(99, i, 0)], space := sp, addr := a, len := x.2, val := row >>> (8 * x.1) } s1) p

/-- Marks each piece of a drain with the storage that other rows write: those bytes are open (spec R248; log entry 12). -/
def overlapRows (l : List Piece) : List (Piece × List Store) :=
  l.map fun p => (p, (l.filter fun q => q.src ≠ p.src).map fun q => (q.space, q.addr, q.len))

/-- The writes of a drain; with a failure, which other lines are written is open (spec R224, R248; log entry 12). -/
def State.putDrain (s : State) (c : CubeCmd) (p : Plan) : Bool × State :=
  let part := s.partOf c.iss
  let keep := p.kept s.free
  let s0 : State := { p.st with free := s.free + 1 }
  let s1 := (overlapRows keep).foldl (fun t x => t.putPiece c.iss.sid part x.2 x.1) s0
  let (tag, s2) := s1.takeTag
  let pk := s2.movePkts c.pasid tag keep
  if pk = [] then (false, s1) else (true, s2.sendPkts (.cmd (4096 + c.ctx) c.seq) part tag pk)

/-- A stop of a plan other than a failure. -/
def State.cubePaged (s : State) (c : CubeCmd) (p : Plan) : Option State :=
  match p.page with
  | some (va, code) => some ((p.left s).cubeWaits { c with st := 3, mcode := code, fva := va } va)
  | none => if p.frozen then some (p.left s) else none

/-- A fill runs (spec R247). -/
def State.fillRun (s : State) (c : CubeCmd) (va off len : Nat) (face : Bool) (layer : Nat) : State :=
  let p : Plan := (List.range (len / 64)).foldl (fun (q : Plan) i => q.fillLine c va off layer (b2n face) i) { st := s }
  match s.cubePaged c p with
  | some s1 => s1
  | none =>
    let keep := p.kept s.free
    let s1 : State := { p.st with free := s.free + 1 }
    (keep.foldl (fun t x => t.putFace x.addr x.val) s1).moveEnd c p.fail

/-- A drain runs; with remote writes it completes once they are answered (spec R217, R248). -/
def State.drainRun (s : State) (c : CubeCmd) (base stride space : Nat) (clr : Bool) (m n : Nat) (units : List Nat) : State :=
  let p : Plan := (List.range m).foldl (fun (q : Plan) i => q.drainRow c base stride space n units i) { st := s }
  match s.cubePaged c p with
  | some s1 => s1
  | none =>
    if p.blocked s (s.partOf c.iss) then p.left s
    else
      let (sent, s1) := s.putDrain c p
      let s2 := if clr then s1.slotZero c.slot else s1
      if !sent then s2.moveEnd c p.fail
      else
        match s2.cubeCmd c.ctx c.seq with
        | none => s2
        | some x => ((s2.setCubeCmd { x with sent := true, fail := match p.fail with
            | some k => some k
            | none => x.fail }).cubeZeros).fabTick

/-- `CZERO` (spec R246). -/
def execCzero (f : LForm) (s : State) : Host.Outcome State Fault Refusal :=
  runOp (do
    let src := bfld f.mod 15 7
    let here ← Op.see fun s => s.slotHere src
    Op.raiseIf (!here) (cubeTrap 0x01)
    let iss ← Op.see State.issuer
    Op.change fun s =>
      ({ s with cube := { s.cube with cmds := s.cube.cmds ++
          [{ ctx := 0, seq := 0, iss := iss, gate := none, pasid := 0, kind := .zero, slot := src }] } } : State).cubeZeros) s

/-- `CFILL` (spec R247). -/
def execCfill (f : LForm) (s : State) : Host.Outcome State Fault Refusal :=
  runOp (do
    let (a, b) ← Op.readAB f.a f.b
    let c ← Op.readS f.c 54
    Op.hint f.ru f.pb [(false, f.a), (false, f.b), (false, f.c)]
    let layer := bfld f.mod 15 3
    let nl ← Op.see State.nl
    Op.raiseIf (decide (nl ≤ layer)) (cubeTrap 0x01)
    Op.raiseIf (a.toNat % 64 ≠ 0) (illegalField 10 6 a)
    Op.raiseIf (b.toNat % 64 ≠ 0) (illegalField 4 6 b)
    Op.raiseIf (c.toNat % 64 ≠ 0 || c = 0 || decide (0x380000 < b.toNat + c.toNat)) (illegalField 54 6 c)
    Op.cubeIssue (bfld f.mod 19 3) (.fill a.toNat b.toNat c.toNat (bbit f.mod 18) layer) 0 f.d 0 0 0) s

/-- `CDRAIN` (spec R248). -/
def execCdrain (f : LForm) (s : State) : Host.Outcome State Fault Refusal :=
  runOp (do
    let (a, b) ← Op.readAB f.a f.b
    Op.hint f.ru f.pb [(false, f.a), (false, f.b)]
    let src := bfld f.mod 15 7
    let m := bfld f.mod 8 7 + 1
    let n := bfld f.mod 1 7 + 1
    Op.raiseIf (a.toNat % 4 ≠ 0) (illegalField 10 6 a)
    Op.raiseIf (b.toNat % 4 ≠ 0) (illegalField 4 6 b)
    let here ← Op.see fun s => s.slotHere src
    Op.raiseIf (!here) (cubeTrap 0x01)
    let space := bfld f.c 1 2
    let units ← Op.look fun t => if space = 2 then t.windowUnits else []
    Op.cubeIssue (bfld f.c 3 3)
      (.drain a.toNat (if b = 0 then 4 * n else b.toNat) space (bbit f.c 0) m n units) src f.d 0 0 0) s

/-! ### Progress, codebooks, restarts -/

/-- The command that `CRPROG` describes (spec R250). -/
def State.cubeShown (s : State) (x : Nat) : Option CubeCmd :=
  let l := s.cubeCmdsOf x
  match l.find? fun c => c.st ≠ 1 with
  | some c => some c
  | none => l.head?

/-- A progress word (spec R250). -/
def CubeCmd.progress (c : CubeCmd) (w : Nat) : Nat :=
  let ix (i : Nat) : Nat := (nestIdx c.nest 6 0 c.iter).getD i 0 % 2 ^ 16
  if w = 0 then
    c.seq % 2 ^ 32 + c.row % 2 ^ 7 * 2 ^ 37 + c.operand % 4 * 2 ^ 44 + c.mcode % 2 ^ 8 * 2 ^ 46 + c.code % 2 ^ 8 * 2 ^ 54
      + c.st % 4 * 2 ^ 62
  else if w = 1 then ix 0 + ix 1 * 2 ^ 16 + ix 2 * 2 ^ 32 + ix 3 * 2 ^ 48
  else ix 4 + ix 5 * 2 ^ 16 + c.step % 2 ^ 8 * 2 ^ 40 + c.pass % 2 ^ 8 * 2 ^ 48

/-- `CRPROG` (spec R250). -/
def execCrprog (f : LForm) (s : State) : Host.Outcome State Fault Refusal :=
  runOp (do
    let v ← Op.see fun s => match s.cubeShown (bfld f.mod 19 3) with
      | some c => c.progress (bfld f.mod 17 2)
      | none => 0
    Op.writeX f.d 16 (BitVec.ofNat 64 v)) s

/-- `CCODE` (spec R249). -/
def execCcode (f : LForm) (s : State) : Host.Outcome State Fault Refusal :=
  runOp (do
    let a ← Op.readS f.a 10
    Op.hint f.ru f.pb [(false, f.a)]
    Op.raiseIf (a.toNat % 32 ≠ 0) (illegalField 10 6 a)
    let r ← Op.loadNow a 32
    match r with
    | .error l => Op.integrity l
    | .ok v => Op.change fun s =>
        { s with cube := { s.cube with shadow := SMap.set 0 s.cube.shadow (bfld f.mod 18 4) (BitVec.ofNat 256 v) } }) s

/-- `CCODESWAP` (spec R249). -/
def execCcodeswap (f : LForm) (s : State) : Host.Outcome State Fault Refusal :=
  runOp (Op.change fun s =>
    { s with cube := { s.cube with active := (List.range 16).foldl (fun m t =>
        if bbit f.mod (6 + t) then SMap.set 0 m t (SMap.get 0 s.cube.shadow t) else m) s.cube.active } }) s

/-- The STOPPED command of a context. -/
def State.cubeHalted (s : State) (x : Nat) : Option CubeCmd := (s.cubeCmdsOf x).find? fun c => c.st = 2

/-- A command goes on where it stopped (spec R251, R255). -/
def CubeCmd.again (c : CubeCmd) : CubeCmd := { c with st := 1, code := 0, mcode := 0, fva := 0 }

/-- `CRESUME` (spec R251). -/
def execCresume (f : LForm) (s : State) : Host.Outcome State Fault Refusal :=
  runOp (Op.change fun s => match s.cubeHalted (bfld f.mod 19 3) with
    | none => s
    | some c => s.setCubeCmd c.again) s

/-- `CRESUME.abandon` (spec R251, R255). -/
def execCresumeAbandon (f : LForm) (s : State) : Host.Outcome State Fault Refusal :=
  runOp (Op.change fun s => match s.cubeHalted (bfld f.mod 19 3) with
    | none => s
    | some c => s.cubeEnd c (some (6, c.code)) 0 0) s

/-! ### Events -/

/-- `CUBE_COMMAND_COMPLETE` (spec R217, R244, R247, R248): the next command of a context runs to its end; a fill or drain may
wait for a page. A command that would stop goes no further here. -/
def execCubeCommandComplete (ctx : Nat) (s : State) : Host.Outcome State Fault Refusal :=
  match s.cubeNext ctx with
  | none => .next s
  | some c =>
    match c.kind with
    | .zero => .next s
    | .fill va off len face layer => .next (s.fillRun c va off len face layer)
    | .drain base stride space clr m n units =>
      if c.sent then
        if s.fab.outs.any fun o => o.org = .cmd (4096 + ctx) c.seq then .next s
        else .next (s.moveEnd c c.fail)
      else .next (s.drainRun c base stride space clr m n units)
    | .mm ls _ _ w m n k =>
      match State.cubeRun ls w m n k (c.left ls.length k) none c s with
      | .done c1 s1 => .next (s1.cubeEnd c1 none 0 0)
      | .stopped _ _ | .waits _ _ _ | .held _ _ => .next s

/-- `CUBE_STOP` (spec R255): the next command of a context runs until a load stops it or it waits for a page; with `mismatch`, a
redundant command may stop at any pass whose two results differ. -/
def execCubeStop (ctx : Nat) (mismatch : Bool) (s : State) : Host.Outcome State Fault Refusal :=
  match s.cubeNext ctx with
  | none => .next s
  | some c =>
    match c.kind with
    | .mm ls _ red w m n k =>
      let left := c.left ls.length k
      let at_ := if mismatch && red then some ((Config.freeVec s.free).toNat % max left 1) else none
      match State.cubeRun ls w m n k left at_ c { s with free := s.free + 1 } with
      | .done _ _ => .next s
      | .stopped c1 s1 => .next (s1.cubeStopped c1)
      | .waits c1 va s1 => .next (s1.cubeWaits c1 va)
      | .held c1 s1 => .next (s1.setCubeCmd c1)
    | _ => .next s

/-- `CUBE_WAITING_RESTART` (spec R255, R342): the page or node is resident; nodes that could not issue their command try again. -/
def execCubeWaitingRestart (ctx : Nat) (s : State) : Host.Outcome State Fault Refusal :=
  .next ({ s with cube := { s.cube with
    cmds := s.cube.cmds.map fun c => if c.ctx = ctx && c.st = 3 then c.again else c } } : State).retryStarts

/-- The step of a layer after a sample `t` (spec R257). -/
def steadyStep (cfg : W64) (s t : Nat) : Nat :=
  let t0 : Int := bfld cfg 0 8
  let d : Int := bfld cfg 8 4
  let h : Int := bfld cfg 12 4
  if s < 7 && decide (t0 + d * s ≤ (t : Int)) then s + 1
  else if 0 < s && decide ((t : Int) < t0 + d * ((s : Int) - 1) - h) then s - 1
  else s

/-- One layer's sample (spec R257, R258): it was gated in `s` of every 8 cycles of the window. -/
def Cube.sample (c : Cube) (l t : Nat) : Cube :=
  let s := bfld c.step (4 * l) 3
  let n := steadyStep c.cfg s t
  { c with step := bset c.step (4 * l) 3 n, temp := bset c.temp (8 * l) 8 (min t 255)
           chg := if n = s then c.chg else c.chg + 1
           thr := SMap.set 0 c.thr l (SMap.get 0 c.thr l + BitVec.ofNat 64 (128 * s)) }

/-- `STEADY_WINDOW_SAMPLE`: the samples of the nine physical layers (spec R257, R258). -/
def execSteadyWindowSample (temps : List Nat) (s : State) : Host.Outcome State Fault Refusal :=
  .next { s with cube := (List.range s.nl).foldl (fun c l => c.sample l (temps.getD (bfld s.cube.map (4 * l) 4) 0)) s.cube }

end Sys2Proof.Machine
end

