-- ==== Sys2Proof/Machine/Rlc.lean ====
section
/-! DEFINITION. The refinement loop controller: its forms, its loop, its stages and its exits (spec R294 to R306). -/

namespace Sys2Proof.Machine

/-! ### Contexts and blocks -/

/-- The timeline of a context (spec R92). -/
def rlcCtx (x : Nat) : Nat := 3 * 4096 + x

/-- The context of a form belongs to the strand's partition (spec R294). -/
def Op.rlcOwn (x : Nat) : Op Unit := do
  let own ← Op.see fun s => s.ctxOwn s.view.id.part (rlcCtx x)
  Op.raiseIf (!own) (illegalField 48 4 0)

/-- A context's state names a running block (spec R303). -/
def Rlc.runs (v : Rlc) : Bool := v.st ≠ 0

/-- A status word of the running block is written; words that wait for a page keep their order (spec R300). -/
def State.statusWord (s : State) (x : Nat) (r : RBlock) (off val : Nat) : State :=
  let w : WordWr :=
    { part := r.part, pasid := r.pasid, va := (r.va.toNat + off) % 2 ^ 64, len := 8, val := val, add := false, after := .status x }
  if s.words.any fun v => v.after = .status x then s.wordWait w
  else
    match s.wordWrite w with
    | .ok s1 => s1
    | .stall s1 => s1.wordWait w
    | .fail k d s1 => s1.setRlc x { s1.rlc x with failed := some ((s1.rlc x).failed.getD (k, d)) }

/-- Status words written in order: offset and value (spec R295). -/
def State.statusWords (s : State) (x : Nat) (r : RBlock) (l : List (Nat × Nat)) : State :=
  l.foldl (fun t w => t.statusWord x r w.1 w.2) s

/-- The word of bytes 128 to 135: exit, the rung at the exit, TRAPPED, flags, k (spec R295, R298, R300). -/
def Rlc.word0 (v : Rlc) : Nat := v.exit + (if v.exit = 0 then 0 else v.rung % 4) * 2 ^ 8 + b2n v.trapped * 2 ^ 10 + v.wfl.toNat * 2 ^ 11 + v.k % 2 ^ 32 * 2 ^ 32

/-- The iterations of each rung. -/
def Rlc.itrWord (v : Rlc) : Nat := (List.range 4).foldl (fun a i => a + v.itr.getD i 0 % 2 ^ 16 * 2 ^ (16 * i)) 0

/-! ### Stages -/

/-- The binding of a stage strand (spec R297). -/
def rlcBind (x stage : Nat) (v : Rlc) (esc fin : Bool) : W64 :=
  BitVec.ofNat 64 (x + stage * 2 ^ 4 + v.rung % 4 * 2 ^ 6 + b2n esc * 2 ^ 8 + b2n fin * 2 ^ 9 + 2 ^ 31 + v.k % 2 ^ 32 * 2 ^ 32)

/-- The identity that stage strands take from the issuer: TRIGGERED, PASID and gang count (spec R17, R120, R296). -/
def State.stageIdent (s : State) (r : RBlock) : Ident :=
  match r.iss with
  | .strand sid id _ =>
    match s.strand? sid with
    | some t => { id with triggered := t.id.triggered, trigDone := t.id.triggered }
    | none => { id with trigDone := id.triggered }
  | .node n => { ngangs := BitVec.ofNat 21 (lpbGangs (s.node n).lpb) }

/-- Strand `j` of a stage gang (spec R296): the class comes from the stage, or from the LPB of a REFINE node (spec R341). -/
def State.stageStrand (s : State) (r : RBlock) (bind : W64) (stage gang j : Nat) : Strand :=
  let g := blkStg r.blk stage
  let who := s.stageIdent r
  let cls := match r.iss with
    | .strand _ _ _ => g.testBit 41
    | .node _ => r.cube
  let id : Ident :=
    { launch := BitVec.ofNat 16 r.launch, gang := BitVec.ofNat 20 gang, idx := BitVec.ofNat 6 j, stage := BitVec.ofNat 8 r.stage
      nstr := BitVec.ofNat 7 (nfld g 32 6 + 1), ngangs := who.ngangs, cls := cls, bprio := BitVec.ofNat 3 (nfld g 38 3)
      spawned := true, triggered := who.triggered, trigDone := who.trigDone, pasid := BitVec.ofNat 20 r.pasid, part := r.part }
  let save := (bfld r.blk 704 64 + j * (r.fr.svstride + r.fr.spstride) * 256) % 2 ^ 64
  let fr : Frames := { r.fr with save := BitVec.ofNat 64 save, spill := BitVec.ofNat 64 (save + r.fr.svstride * 256) }
  let t := newStrand id fr (BitVec.ofNat 32 (nfld g 0 32)) 0 (r.va.toNat + bfld r.blk 640 64 * 2 ^ 64)
  { t with bind := bind }

/-- Adds the strands of a stage gang; answers their handles. -/
def State.addGang (r : RBlock) (bind : W64) (stage gang : Nat) : Nat → Nat → State → List Nat × State
  | 0, _, s => ([], s)
  | k + 1, j, s =>
    let (i, s1) := s.addStrand (s.stageStrand r bind stage gang j)
    let (l, s2) := State.addGang r bind stage gang k (j + 1) s1
    (i :: l, s2)

/-- The stage's gang is created and ready for placement (spec R28, R31, R296); `v.after` says whether an exit follows, and a
context whose FACTOR follows an escalation has had an iteration. -/
def State.makeStage (s : State) (x : Nat) : State :=
  let v := s.rlc x
  match v.head with
  | none => s
  | some r =>
    let stage := v.st - 1
    let (g, s1) := s.takeGang r.launch r.stage
    let bind := rlcBind x stage v (stage = 0 && v.k ≠ 0) (stage = 3 && v.after = 200)
    let (l, s2) := State.addGang r bind stage g (v.stageCount r) 0 s1
    let s3 := s2.setRlc x { s2.rlc x with gang := l }
    { s3 with chuck := { s3.chuck with ready := s3.chuck.ready ++ [{ sids := l, bound := false }] } }

/-- The gang of the context's stage waits to be created. -/
def State.stageWaits (s : State) (x : Nat) : Bool :=
  s.chuck.waiting.any fun w => match w with
    | .stage c _ => c = x
    | .handler _ _ _ | .spawn _ _ | .gang _ _ => false

/-- A stage begins: its gang is created when context-store entries are free for it (spec R135, R296). -/
def State.startStage (s : State) (x st : Nat) : State :=
  let s1 := s.setRlc x { s.rlc x with st := st, gang := [] }
  let v := s1.rlc x
  match v.head with
  | none => s1
  | some r =>
    let prio := nfld (blkStg r.blk (st - 1)) 38 3
    if s1.entriesFor (v.stageCount r) prio then s1.makeStage x
    else { s1 with chuck := { s1.chuck with waiting := s1.chuck.waiting ++ [Creation.stage x prio] } }

/-! ### Exits and escalation -/

/-- Exit(e): the status is written, and the block completes once it has performed; an abort that was pending is spent (spec R298, R300). -/
def State.rlcExit (s : State) (x e : Nat) (trap : Bool) : State :=
  let v := { s.rlc x with exit := e, trapped := trap, st := 5, gang := [], after := 0, abort := false }
  match v.head with
  | none => s
  | some r => (s.setRlc x v).statusWords x r [(128, v.word0)]

/-- Escalate(q) (spec R298). -/
def State.escalate (s : State) (x q : Nat) : State :=
  let v := s.rlc x
  match v.head with
  | none => s
  | some r =>
    if blkNr r.blk < q then s.rlcExit x 4 (bfld r.blk 12 1 = 1)
    else (s.setRlc x { v with rung := q, prev := none, req := none }).startStage x 1

/-! ### The norm test -/

/-- A `f64` code as a value. -/
def f64Val (x : W64) : FVal := unpackVal 0 16 x.toNat

/-- A value is finite. -/
def FVal.isFin : FVal → Bool
  | .fin _ _ _ => true
  | _ => false

/-- The sum S of the 64 slots (spec R298). -/
def Rlc.normSum (v : Rlc) : W64 :=
  let l := (List.range 64).map fun i => f64Val (SMap.get 0 v.norm i)
  BitVec.ofNat 64 (roundTo {} 16 (treeSum {} 16 6 l).1).1

/-- η: the rounded root of S over ‖b‖, rounded (spec R298). -/
def etaOf (sum bnorm : W64) : W64 :=
  let r := (roundOp {} 16 (sqrtExact (f64Val sum))).1
  BitVec.ofNat 64 (roundOp {} 16 (divExact (f64Val (BitVec.ofNat 64 r)) (f64Val bnorm))).1

/-- η exceeds a factor times the η before, exactly (spec R298). -/
def growsBy (eta factor prev : W64) : Bool := fLt (mulExact (f64Val factor) (f64Val prev)).1 (f64Val eta)

/-- The outcome of a test (spec R298). -/
inductive NormTest where
  | conv
  | div
  | stag
  | none
  deriving DecidableEq, Repr

/-- The test of R298. -/
def normTest (b : BitVec 1024) (fl : BitVec 6) (eta : W64) (prev : Option W64) : NormTest :=
  let f (lo : Nat) : W64 := BitVec.ofNat 64 (bfld b lo 64)
  if fl.toNat &&& bfld b 13 6 ≠ 0 || !(f64Val eta).isFin then .div
  else if !(fLt (f64Val (f 384)) (f64Val eta)) then .conv
  else
    match prev with
    | some p => if growsBy eta (f 512) p then .div else if growsBy eta (f 448) p then .stag else .none
    | none => .none

/-- The end of RESIDUAL: the test, its status, and what follows (spec R298). -/
def State.rlcTest (s : State) (x : Nat) (r : RBlock) : State :=
  let v := s.rlc x
  let sum := v.normSum
  let eta := etaOf sum (BitVec.ofNat 64 (bfld r.blk 576 64))
  let c := normTest r.blk v.fl eta v.prev
  let shown := if (f64Val eta).isFin then eta else BitVec.ofNat 64 (canonNaN 16)
  let v1 : Rlc :=
    { v with k := v.k + 1, itr := setAt v.itr v.rung (v.itr.getD v.rung 0 + 1), sum := sum, eta := shown
             etap := v.prev.getD 0, wfl := v.fl, fl := 0 }
  let s1 := (s.setRlc x v1).statusWords x r
    [(128, v1.word0), (136, v1.eta.toNat), (144, v1.etap.toNat), (152, v1.sum.toNat), (160, v1.itrWord)]
  let plan (e : Nat) (s : State) : State := (s.setRlc x { s.rlc x with after := 200, fin := e }).startStage x 4
  if v1.abort then s1.rlcExit x 6 false
  else
    match c with
    | .conv => plan 1 s1
    | .div => if bfld r.blk 11 1 = 1 then s1.rlcExit x 3 true else s1.escalate x (v1.rung + 1)
    | .stag =>
      if bfld r.blk 10 1 = 0 then plan 2 s1
      else (s1.setRlc x { s1.rlc x with after := 100 + v1.rung + 1 }).startStage x 4
    | .none =>
      if v1.k = bfld r.blk 32 32 then plan 5 s1
      else (s1.setRlc x { s1.rlc x with after := 0 }).startStage x 4

/-- The end of UPDATE (spec R298): an exit already decided stands; else an abort, an escalation, or the next SOLVE. -/
def State.rlcUpdated (s : State) (x : Nat) : State :=
  let v := s.rlc x
  if v.after = 200 then s.rlcExit x v.fin false
  else if v.abort then s.rlcExit x 6 false
  else if 100 ≤ v.after then (s.setRlc x { v with after := 0 }).escalate x (v.after - 100)
  else
    let s1 := s.setRlc x { v with prev := some v.eta }
    match v.req with
    | some q => s1.escalate x q
    | none => s1.startStage x 2

/-! ### Instructions -/

/-- `REFINE` (spec R302). -/
def execRefine (f : LForm) (s : State) : Host.Outcome State Fault Refusal :=
  runOp (do
    let x := bfld f.mod 16 4
    let a ← Op.readS f.a 10
    Op.hint f.ru f.pb [(false, f.a)]
    Op.rlcOwn x
    Op.raiseIf (a.toNat % 256 ≠ 0) (illegalField 10 6 a)
    let full ← Op.see fun s => decide (8 ≤ (s.rlc x).queue.length)
    Op.stallIf full
    let r ← Op.loadNow a 128
    match r with
    | .error l => Op.integrity l
    | .ok v => do
      let blk : BitVec 1024 := BitVec.ofNat 1024 v
      match blkBad a.toNat blk with
      | some off => Op.raise { cls := 0x04, code := 0, va := a + BitVec.ofNat 64 off }
      | none => do
        let gate ← Op.enqueue .both .cmd none false 3 false
        let iss ← Op.see State.issuer
        let t ← Op.look id
        let n ← (fun s => .ok (s.blockQueue x
          { seq := 0, iss := iss, va := a, blk := blk, pasid := t.id.pasid.toNat, part := t.id.part, launch := t.id.launch.toNat
            stage := t.id.stage.toNat, fr := t.fr, cube := false, gate := some gate }) : Op Nat)
        Op.writeX f.d 16 (BitVec.ofNat 64 n)) s

/-- What `RLSTAT` shows of a context (spec R303). -/
def Rlc.shown (v : Rlc) (sel : Nat) : W64 :=
  if !v.runs then 0
  else if sel = 1 then v.eta
  else if sel = 2 then v.etap
  else if sel = 3 then v.sum
  else
    let seq := match v.head with
      | some r => r.seq
      | none => 0
    BitVec.ofNat 64 (v.st + b2n v.req.isSome * 2 ^ 3 + b2n v.abort * 2 ^ 4 + v.rung % 4 * 2 ^ 8
      + min v.k 0xFFFFF * 2 ^ 12 + seq % 2 ^ 32 * 2 ^ 32)

/-- `RLSTAT` (spec R303). -/
def execRlstat (f : LForm) (s : State) : Host.Outcome State Fault Refusal :=
  runOp (do
    let x := bfld f.mod 16 4
    Op.rlcOwn x
    let v ← Op.see fun s => s.rlc x
    Op.writeX f.d 16 (v.shown (bfld f.mod 20 2))) s

/-- `RLABORT` (spec R304). -/
def execRlabort (f : LForm) (s : State) : Host.Outcome State Fault Refusal :=
  runOp (do
    let x := bfld f.mod 16 4
    Op.rlcOwn x
    Op.change fun s => if (s.rlc x).runs then s.setRlc x { s.rlc x with abort := true } else s) s

/-- `RLRUNG` (spec R304). -/
def execRlrung (f : LForm) (s : State) : Host.Outcome State Fault Refusal :=
  runOp (do
    let x := bfld f.mod 16 4
    let a ← Op.readS f.a 10
    Op.hint f.ru f.pb [(false, f.a)]
    Op.rlcOwn x
    Op.raiseIf (decide (4 ≤ a.toNat)) (illegalField 10 6 a)
    let v ← Op.see fun s => s.rlc x
    match v.head with
    | none => pure ()
    | some r =>
      if !v.runs then pure ()
      else do
        Op.raiseIf (decide (a.toNat ≤ v.rung) || decide (blkNr r.blk < a.toNat)) (illegalField 10 6 a)
        Op.change fun s => s.setRlc x { s.rlc x with req := some a.toNat }) s

/-! ### Events -/

/-- `RLC_BLOCK_START`: a block reaches the head of its context and FACTOR begins (spec R298, R299, R302). -/
def execRlcBlockStart (x : Nat) (s : State) : Host.Outcome State Fault Refusal :=
  let v := s.rlc x
  match v.head with
  | none => .next s
  | some r =>
    if v.runs || !(s.mayStart r.iss r.gate) then .next s
    else
      let s1 := s.setRlc x { ({ queue := v.queue, norm := v.norm } : Rlc) with st := 1 }
      let zero := (List.range 10).map fun i => (176 + 8 * i, 0)
      .next ((s1.statusWords x r ([(128, 0), (168, r.seq)] ++ zero)).startStage x 1)

/-- The strands of a block's stage will not run: their partition is torn down, and none of them holds a slot (spec R339). -/
def State.stageDead (s : State) (r : RBlock) (v : Rlc) : Bool :=
  (s.part r.part).st = 2 && v.gang.all fun i => !((s.strand? i).getD {}).place.resident

/-- `RLC_STAGE_END`: every strand of the stage gang has exited (spec R296, R298, R299). In a partition that is torn down the records of a
stage are discarded, and the block exits as aborted (log entry 35). -/
def execRlcStageEnd (x : Nat) (s : State) : Host.Outcome State Fault Refusal :=
  let v := s.rlc x
  match v.head with
  | none => .next s
  | some r =>
    if v.st = 0 || v.st = 5 then .next s
    else if s.stageDead r v then .next (s.rlcExit x 6 false)
    else if v.gang ≠ [] || s.stageWaits x then .next s
    else if v.st = 1 then .next (if v.abort then s.rlcExit x 6 false else s.startStage x 2)
    else if v.st = 2 then
      .next (if v.abort then s.rlcExit x 6 false else (s.setRlc x { v with norm := [] }).startStage x 3)
    else if v.st = 3 then .next (s.rlcTest x r)
    else .next (s.rlcUpdated x)

/-- The trap of an exit (spec R300). -/
def Rlc.trapOf (v : Rlc) (x : Nat) (r : RBlock) : TrapInfo :=
  { cls := 0x0E, code := v.exit, va := r.va, aux0 := BitVec.ofNat 64 r.seq
    aux1 := BitVec.ofNat 64 (v.k % 2 ^ 32 + v.rung * 2 ^ 32 + rlcCtx x * 2 ^ 48) }

/-- `RLC_BLOCK_EXIT`: the status has performed, and the block completes (spec R299, R300, R342). -/
def execRlcBlockExit (x : Nat) (s : State) : Host.Outcome State Fault Refusal :=
  let v := s.rlc x
  match v.head with
  | none => .next s
  | some r =>
    if v.st ≠ 5 || s.words.any (fun w => w.after = .status x) then .next s
    else
      let s1 := if !v.trapped then s
        else match r.iss with
          | .strand _ _ _ => s.engineTrap r.iss (rlcCtx x) r.seq (v.trapOf x r)
          | .node n => s.nodeFail n 0x0E v.exit (rlcCtx x) r.seq
      let s2 := s1.setRlc x { queue := v.queue.drop 1, norm := v.norm }
      .next (((s2.finish (rlcCtx x) r.seq v.failed 0).nodeCheck r.launch).settleAll)

end Sys2Proof.Machine
end

