-- ==== Sys2Proof/Machine/SchedEvents.lean ====
section
/-! DEFINITION. What Chuck, the cores and the MTU do between instructions: placement, slots, context entries, waits, aging,
pre-emption at timeout, leases and migration (spec R31 to R34, R135, R136, R145, R186 to R189). An event whose condition does not
hold changes nothing (log entry 3). -/

namespace Sys2Proof.Machine

/-! ### Placement -/

/-- `GANG_PLACEMENT` (spec R31): the first unit in order that fits is placed. -/
def execGangPlacement (s : State) : Host.Outcome State Fault Refusal :=
  match s.nextPlacement with
  | some (u, _, cores) => .next (s.place u cores)
  | none => .next s

/-- A cluster could take a unit if every slot of the partition there were free. -/
def State.couldTake (s : State) (u : UnitK) (cl : Nat) : Bool :=
  (assign (s.unitNeeds u) ((s.coresOf (s.unitPart u) cl).map fun k => (k, { slots := 8, regs := 1024, spad := 512 }))).isSome

/-- The cluster reserved for a unit: the eligible one with the most free slots, the lowest-numbered on a tie (spec R31). -/
def State.reserveFor (s : State) (u : UnitK) : Option Nat :=
  let all := (s.unitClusters u).filter fun cl => !(s.keptFrom u cl) && s.couldTake u cl
  match all.map fun cl => (cl, s.freeSlots (s.unitPart u) cl, ([] : List Nat)) with
  | [] => none
  | f :: t => some (t.foldl betterCl f).1

/-- `CLUSTER_RESERVATION` (spec R31): the first unit in order has not fitted for `cr.chuck.resv` cycles. -/
def execClusterReservation (s : State) : Host.Outcome State Fault Refusal :=
  match s.unitsInOrder with
  | [] => .next s
  | u :: _ =>
    if (s.choice u).isSome || s.chuck.reserved.any (fun r => u.key = r.2) then .next s
    else
      match s.reserveFor u with
      | none => .next s
      | some cl => .next { s with chuck := { s.chuck with reserved := s.chuck.reserved ++ [(cl, u.key)] } }

/-- `STRAND_SLOT_FREE` (spec R29, R34, R55): an exited strand's slot, window, scratchpad and record are freed once no engine
writes into its allotment. -/
def execStrandSlotFree (sid : Nat) (s : State) : Host.Outcome State Fault Refusal :=
  match s.strand? sid with
  | none => .next s
  | some t =>
    if t.id.state = 7 && t.place.resident && t.q.accs.isEmpty && !(s.engineBusy sid) then
      .next ((s.dropLatches sid).dropStrand sid)
    else .next s

/-! ### Context entries -/

/-- The next creation served: the highest priority, then the order in which they began to wait, among those whose entries are
free (spec R135). -/
def State.nextCreation (s : State) : Option Creation :=
  ([7, 6, 5, 4, 3, 2, 1, 0] : List Nat).findSome? fun p => s.servable.find? fun c => c.prio = p

/-- A creation gets its entries (spec R27, R128, R135, R296). -/
def State.createNow (s : State) (c : Creation) : State :=
  match c with
  | .handler st _ old =>
    let (i, s1) := s.createHandler st
    match old with
    | some o => s1.passGang o i
    | none => s1
  | .stage x _ => s.makeStage x
  | .spawn sid _ => (s.onStrand sid fun t => { t with sch := { t.sch with grant := true } }).makeRunnable sid
  | .gang n _ => s.setNode n { s.node n with resv := lpbNstr (s.node n).lpb }

/-- `CONTEXT_ENTRY_GRANT` (spec R135). -/
def execContextEntryGrant (s : State) : Host.Outcome State Fault Refusal :=
  match s.nextCreation with
  | none => .next s
  | some c => .next (({ s with chuck := { s.chuck with waiting := s.chuck.waiting.erase c } } : State).createNow c)

/-! ### Waits -/

/-- The line of a barrier object as a wait reads it: met, not met, or a line that fails its check (spec R268). -/
def State.barrierMet (s : State) (t : Strand) : Option Bool :=
  match s.translate t.id.pasid.toNat t.id.wval.toNat 64 .read with
  | .error _ => some false
  | .ok (segs, s1) => if (s1.mem.badSeg segs).isSome then none else some (barMet (s1.mem.gather segs))

/-- The target of a strand's wait is satisfied (spec R32); a `TLWAIT` also ends where an engine trap it covers is pending
(spec R129). -/
def State.waitMet (s : State) (t : Strand) : Bool :=
  if t.id.wkind = 1 then
    decide (t.id.wval.toNat ≤ (s.ctx t.id.wctx).counter.toNat)
      || t.trap.pending.any fun e => e.ctx = t.id.wctx && decide (e.seq ≤ t.id.wval.toNat)
  else if t.id.wkind = 2 then (s.barrierMet t).getD true
  else s.chunkMet (t.id.wctx % 4096) t.id.wval.toNat

/-- A wait is over; a barrier line that fails its check is met afresh by the instruction (spec R193). -/
def State.waitDone (s : State) (t : Strand) : Bool :=
  if t.id.wkind = 2 then (s.barrierMet t).getD false else true

/-- `WAIT_SPIN_EXPIRY` (spec R32, R34). -/
def execWaitSpinExpiry (sid : Nat) (s : State) : Host.Outcome State Fault Refusal :=
  match s.strand? sid with
  | none => .next s
  | some t =>
    if t.id.state = 2 && t.sch.stop.isNone && !(s.waitMet t) then .next (s.stopStrand sid (.suspend t.id.reason false))
    else .next s

/-- The record fields of a wait that completes in the slot. -/
def Strand.spinEnds (t : Strand) (done : Bool) : Strand :=
  { t with id := { t.id with state := 1, reason := 0, wkind := 0, wctx := 0, wval := 0 }
           sch := { t.sch with waitDone := done } }

/-- A record's suspension is a wait of R32. -/
def waitReason (r : Nat) : Bool := decide (3 ≤ r) && decide (r ≤ 6)

/-- `WAIT_TARGET_SATISFIED` (spec R32, R34): in the slot the instruction completes; a suspended record becomes runnable. -/
def execWaitTargetSatisfied (sid : Nat) (s : State) : Host.Outcome State Fault Refusal :=
  match s.strand? sid with
  | none => .next s
  | some t =>
    if t.id.state = 2 && t.sch.stop.isNone && s.waitMet t then .next (s.setStrand sid (t.spinEnds (s.waitDone t)))
    else if t.id.state = 3 && waitReason t.id.reason && !t.sch.held && s.waitMet t then
      .next ((s.setStrand sid { t with sch := { t.sch with waitDone := s.waitDone t } }).makeRunnable sid)
    else .next s

/-! ### Aging, idling, page faults, pre-emption -/

/-- The effective priority rises by one, to at most 7 (spec R33); at base priority 7 AGED stays clear (spec R18; log entry 71). -/
def Strand.raised (t : Strand) : Strand :=
  let p : BitVec 3 := if t.id.eprio = 7 then 7 else t.id.eprio + 1
  { t with id := { t.id with eprio := p, aged := decide (t.id.bprio.toNat < p.toNat) } }

/-- The aging count moves to a count, with the raise a multiple of 65,536 brings (spec R33). -/
def Strand.ageTo (t : Strand) (n : Nat) : Strand :=
  let u := { t with sch := { t.sch with age := n } }
  if n % 65536 = 0 then u.raised else u

/-- `AGING_PRIORITY_RAISE` (spec R33): cycles in which the strand is ready and does not issue, as in the last cycle of its core, bring its aging
count to the next multiple of 65,536 (log entry 103). -/
def execAgingPriorityRaise (sid : Nat) (s : State) : Host.Outcome State Fault Refusal :=
  match s.strand? sid with
  | none => .next s
  | some t => if t.runs && t.sch.passed then .next (s.setStrand sid (t.ageTo ((t.sch.age / 65536 + 1) * 65536))) else .next s

/-- `IDLE_WAKE` (spec R145): 65,536 cycles have passed; the other two ends of `IDLE` come with their cause. -/
def execIdleWake (sid : Nat) (s : State) : Host.Outcome State Fault Refusal :=
  .next (s.onStrand sid fun t => { t with sch := { t.sch with idle := false, idleOn := [] } })

/-- The page or node a strand waits for is resident: its walk ends otherwise than it did (spec R130, R186). -/
def State.faultGone (s : State) (t : Strand) : Bool := s.mem.faultKey t.id.pasid.toNat t.sch.faultVa.toNat ≠ t.sch.faultKey

/-- `PAGE_RESIDENT_RESUME` (spec R34, R130, R186). -/
def execPageResidentResume (sid : Nat) (s : State) : Host.Outcome State Fault Refusal :=
  match s.strand? sid with
  | none => .next s
  | some t =>
    if t.id.state = 3 && t.id.reason = 7 && !t.sch.held && s.faultGone t then .next (s.makeRunnable sid) else .next s

/-- `PREEMPT_TIMEOUT` (spec R132, R136): a full save at the next bundle boundary; a trap already taken is delivered first. -/
def execPreemptTimeout (sid : Nat) (s : State) : Host.Outcome State Fault Refusal :=
  match s.strand? sid with
  | none => .next s
  | some t =>
    if !t.sch.preempt || !t.place.resident || t.id.state ≠ 1 then .next s
    else
      match t.sch.stop with
      | none => .next (s.stopStrand sid (.suspend 8 true))
      | some _ => .next (s.setStrand sid { t with sch := { t.sch with forced := true } })

/-! ### Leases and migration -/

/-- `LEASE_EXPIRY` (spec R187). -/
def execLeaseExpiry (sid page : Nat) (s : State) : Host.Outcome State Fault Refusal :=
  .next (s.onStrand sid fun t => { t with q := { t.q with leases := t.q.leases.filter fun l => l.va ≠ page } })

/-- A migration by its page. -/
def Mem.mig? (m : Mem) (pasid page : Nat) : Option Mig := m.migs.find? fun g => g.pasid = pasid && g.va / 65536 = page / 65536

/-- A migration replaced. -/
def Mem.setMig (m : Mem) (g : Mig) : Mem :=
  { m with migs := m.migs.map fun h => if h.pasid = g.pasid && h.va = g.va then g else h }

/-- A migration removed. -/
def Mem.dropMig (m : Mem) (g : Mig) : Mem := { m with migs := m.migs.filter fun h => !(h.pasid = g.pasid && h.va = g.va) }

/-- Copies lines of a migrating frame, each with its check unchanged (spec R189). -/
def Mem.copyLines (m : Mem) (old new : Nat) (ls : List Nat) : Mem :=
  ls.foldl (fun (acc : Mem) l => acc.putLine (new + (64 * l - old)) (acc.line (64 * l)) (!(acc.lineBad l))) m

/-- The event of a migration that ends without moving its page (spec R189; log entry 26). -/
def State.migEvent (s : State) (g : Mig) : State :=
  s.event (2 ^ 16) g.pasid 0x24 (g.va % 2 ^ 64 + g.pasid % 2 ^ 20 * 2 ^ 64 + 2 ^ 88)

/-- `MIGRATION_ROUND_END` (spec R189): the freeze, the abort after 16 rounds, or the next round, which copies the lines marked. -/
def execMigrationRoundEnd (pasid page : Nat) (s : State) : Host.Outcome State Fault Refusal :=
  match s.mem.mig? pasid page with
  | none => .next s
  | some g =>
    if g.frozen then .next s
    else if g.marked.length ≤ 256 then .next { s with mem := s.mem.setMig { g with frozen := true } }
    else if 15 ≤ g.round then .next (({ s with mem := s.mem.dropMig g } : State).migEvent g)
    else
      .next { s with mem := (s.mem.copyLines g.old g.new g.marked).setMig { g with round := g.round + 1, marked := [] } }

/-- The address of the leaf entry of a 64 KiB page (spec R183). -/
def Mem.leafAt (m : Mem) (pasid va : Nat) : Nat :=
  let a1 := m.nodeFrame (2 ^ 48 + pasid) (SMap.get 0 m.roots pasid).toNat * 65536 + 8 * walkIndex va 1
  let a2 := m.nodeFrame a1 (m.rd a1 8) * 65536 + 8 * walkIndex va 2
  m.nodeFrame a2 (m.rd a2 8) * 65536 + 8 * walkIndex va 3

/-- The entry at an address names a node in a frame: it is valid and no leaf (spec R182). -/
def Mem.namesNode (m : Mem) (at_ e old : Nat) : Bool := e.testBit 0 && !(e.testBit 1) && m.nodeFrame at_ e = old

/-- The entries of a node that hold bytes: their addresses and values. -/
def Mem.entriesOf (m : Mem) (frame : Nat) : List (Nat × Nat) :=
  ((m.cells.filterMap fun c => if c.1 / 65536 = frame then some (c.1 / 8 * 8) else none).eraseDups).map fun a => (a, m.rd a 8)

/-- The frames of the nodes that a list of entries names. -/
def Mem.nodesOf (m : Mem) (l : List (Nat × Nat)) : List Nat :=
  ((l.filter fun x => x.2.testBit 0 && !(x.2.testBit 1)).map fun x => m.nodeFrame x.1 x.2).eraseDups

/-- Every entry that can name a node, with its place: the roots, and the entries of the first two levels (spec R182, R183). -/
def Mem.nodeEntries (m : Mem) : List (Nat × Nat) :=
  let roots := m.roots.map fun (e : Nat × W64) => (2 ^ 48 + e.1, e.2.toNat)
  let l1 := (m.nodesOf roots).flatMap m.entriesOf
  roots ++ l1 ++ (m.nodesOf l1).flatMap m.entriesOf

/-- After the freeze the walker reads a node that stood in the old frame from the new one, whatever its entry names; entries that stood in
the old frame stand in the new one (spec R188). -/
def Mem.moveNode (m : Mem) (g : Mig) : Mem :=
  let (old, new) := (g.old / 65536, g.new / 65536)
  let hits := m.nodeEntries.filter fun x => m.namesNode x.1 x.2 old
  let all := (m.moved.filter fun x => !(hits.any fun h => h.1 = x.1)) ++ hits.map fun h => (h.1, nfld h.2 16 32, new)
  { m with moved := all.map fun x => (if x.1 / 65536 = old then x.1 % 65536 + g.new else x.1, x.2) }

/-- A physical address of a migrated frame becomes the one of the new frame. -/
def rehome (g : Mig) (pa : Nat) : Nat := if g.old ≤ pa && pa < g.old + 65536 then g.new + (pa - g.old) else pa

/-- A queued access at the new frame (spec R189). -/
def Act.rehome (g : Mig) : Act → Act
  | .load l sg w => .load (l.map fun x => { x with pa := Sys2Proof.Machine.rehome g x.pa }) sg w
  | .store l r d => .store (l.map fun x => { x with pa := Sys2Proof.Machine.rehome g x.pa }) r d
  | .atom o ty x b c => .atom o ty { x with pa := Sys2Proof.Machine.rehome g x.pa } b c
  | .bank o ty sa x v y z => .bank o ty sa { x with pa := Sys2Proof.Machine.rehome g x.pa } v y z
  | .sload o n sg w => .sload o n sg w
  | .sstore o n d => .sstore o n d
  | .ratom o ty va b c => .ratom o ty va b c
  | .rbank o ty sa va v y z => .rbank o ty sa va v y z
  | .mark => .mark
  | .spalloc a b => .spalloc a b
  | .spfree a b => .spfree a b
  | .hold a b m => .hold a b m
  | .cmd => .cmd
  | .trig => .trig
  | .exit => .exit

/-- The accesses of a frame that migrated: those at its page of its PASID. -/
def Access.rehome (g : Mig) (a : Access) : Access :=
  if a.act.segs.all fun x => x.va / 65536 = g.va / 65536 || !(g.old ≤ x.pa && x.pa < g.old + 65536) then
    { a with act := a.act.rehome g } else a

/-- A strand's leases and queued accesses follow a migrated page (spec R189). -/
def Strand.rehome (g : Mig) (t : Strand) : Strand :=
  if t.id.pasid.toNat ≠ g.pasid then t
  else
    { t with
      q := { t.q with
        leases := t.q.leases.map fun l => if l.va = g.va && l.lg = 16 then { l with pa := Sys2Proof.Machine.rehome g l.pa } else l
        accs := t.q.accs.map fun a => a.rehome g } }

/-- A host's bytes go to memory; a busy frame stalls them (spec R189, R192, R333). -/
def State.hostPut (s : State) (pa : Nat) (bytes : List Byte) : State :=
  if (linesOf pa bytes.length).any fun l => s.mem.frameBusy (l / 1024) then
    { s with host := { s.host with writes := s.host.writes ++ [(pa, bytes)] } }
  else
    let (m, bad) := s.mem.write pa bytes
    ({ s with mem := m } : State).lineEvents (2 ^ 16) bad

/-- The host writes that were stalled are tried again, in order. -/
def State.hostRetry (s : State) : State :=
  s.host.writes.foldl (fun (t : State) x => t.hostPut x.1 x.2) { s with host := { s.host with writes := [] } }

/-- What waited for a frozen page or a locked frame goes on (spec R189, R333). -/
def State.thaw (s0 : State) : State :=
  let s := s0.hostRetry
  ({ s with fab := { s.fab with loop := s.fab.stalled ++ s.fab.loop, stalled := [] } } : State).settleAll.fabTick

/-- `MIGRATION_FREEZE_END` (spec R189): the marked lines are copied and the leaf entry names the new frame. -/
def execMigrationFreezeEnd (pasid page : Nat) (s : State) : Host.Outcome State Fault Refusal :=
  match s.mem.mig? pasid page with
  | none => .next s
  | some g =>
    if !g.frozen then .next s
    else
      let m := (s.mem.copyLines g.old g.new g.marked).moveNode g
      let at_ := m.leafAt g.pasid g.va
      let pte := bset (BitVec.ofNat 64 (m.rd at_ 8)) 16 32 (g.new / 65536)
      let m1 := ((m.dropMig g).setPte at_ pte.toNat).unlearn g.pasid g.va 65536
      let s1 := { s with mem := m1, strands := s.strands.map fun (e : Nat × Strand) => (e.1, e.2.rehome g) }
      .next s1.thaw

end Sys2Proof.Machine
end

