-- ==== Sys2Proof/Machine/Power.lean ====
section
/-! DEFINITION. Rails, cluster clocks, the memory stack, bandwidth shares, promotion, and the writes of their registers
(spec R135, R272, R326 to R335). What a sensor, a monitor or a counter reads comes with the event (log entry 2). -/

namespace Sys2Proof.Machine

/-! ### Rails and clocks -/

/-- One trim step at a measured slack (spec R327, R328). -/
def Clk.trim (k : Clk) (slack : Nat) : Clk :=
  if slack < k.slack then
    if k.rail + 5 ≤ 950 then { k with rail := k.rail + 5, cap := false, floor := false }
    else { k with cap := true, floor := false, met := k.met || k.seq = 1 }
  else if k.slack + 10 ≤ slack then
    if 555 ≤ k.rail then { k with rail := k.rail - 5, cap := false, floor := false }
    else { k with cap := false, floor := true }
  else { k with cap := false, floor := false }

/-- `VTRIM_TICK` (spec R328). -/
def execVtrimTick (c slack : Nat) (s : State) : Host.Outcome State Fault Refusal :=
  if 32 ≤ c then .next s else .next (s.setClk c ((s.clk c).trim slack))

/-- The sequencer at rest takes its next step toward the target (spec R330). -/
def Clk.start (k : Clk) : Clk :=
  if k.seq ≠ 0 then k
  else if k.cur < k.target then { k with seq := 1, up := true, met := false }
  else if k.target < k.cur then { k with seq := 2, up := false }
  else k

/-- The target at the end of a window with `n` stalled core-cycles: s = 1 − n / 524288 against thr / 256 (spec R329). -/
def Clk.windowTarget (k : Clk) (n : Nat) : Nat :=
  if (524288 - n) * 256 < k.thr * 524288 then (if k.fmin < k.target then k.target - 1 else k.target)
  else if k.thr * 524288 < (524288 - n) * 256 then (if k.target < k.fmax then k.target + 1 else k.target)
  else k.target

/-- `CLOCK_WINDOW_END` (spec R329, R330). -/
def execClockWindowEnd (c mstall istall : Nat) (s : State) : Host.Outcome State Fault Refusal :=
  if 32 ≤ c || 524288 < mstall + istall then .next s
  else
    let k := s.clk c
    .next (s.setClk c ({ k with mstall := mstall, istall := istall, target := k.windowTarget (mstall + istall) } : Clk).start)

/-- `CLOCK_VUP_END` (spec R330): the up-step goes on to FSW, or is abandoned because its VUP met CAP. -/
def execClockVupEnd (c : Nat) (cap : Bool) (s : State) : Host.Outcome State Fault Refusal :=
  let k := s.clk c
  if 32 ≤ c || k.seq ≠ 1 || cap ≠ k.met then .next s
  else if cap then .next (s.setClk c { k with seq := 0, target := k.cur, met := false })
  else .next (s.setClk c { k with seq := 2 })

/-- `CLOCK_FSW_END` (spec R330): issue resumes at the new code; a down-step goes on to VDOWN. -/
def execClockFswEnd (c : Nat) (s : State) : Host.Outcome State Fault Refusal :=
  let k := s.clk c
  if 32 ≤ c || k.seq ≠ 2 then .next s
  else if k.up then .next (s.setClk c ({ k with seq := 0, cur := k.cur + 1, up := false } : Clk).start)
  else .next (s.setClk c { k with seq := 3, cur := k.cur - 1 })

/-- `CLOCK_VDOWN_END` (spec R330). -/
def execClockVdownEnd (c : Nat) (s : State) : Host.Outcome State Fault Refusal :=
  let k := s.clk c
  if 32 ≤ c || k.seq ≠ 3 then .next s else .next (s.setClk c ({ k with seq := 0 } : Clk).start)

/-- A cluster's clock switches: it issues nothing (spec R330). -/
def State.switching (s : State) (c : Nat) : Bool := (s.clk c).seq = 2

/-- An ACTIVE partition holds a core of a cluster (spec R346). -/
def State.holdsCluster (s : State) (part c : Nat) : Bool :=
  (s.part part).st = 1 && (bbit (s.part part).halves (2 * c) || bbit (s.part part).halves (2 * c + 1))

/-- A value inside limits. -/
def boundTo (lo hi x : Nat) : Nat := if x < lo then lo else if hi < x then hi else x

/-- A write of `cr.clk`: none for a refused one (spec R329, R346). -/
def State.clkWrite (s : State) (part c : Nat) (v : W64) : Option State :=
  let lo := bfld v 0 8
  let hi := bfld v 8 8
  if !(s.holdsCluster part c) || bfld v 24 40 ≠ 0 || lo < 4 || hi < lo || 16 < hi then none
  else
    let k := s.clk c
    some (s.setClk c ({ k with fmin := lo, fmax := hi, thr := bfld v 16 8, target := boundTo lo hi k.target } : Clk).start)

/-- A write of `cr.vtrim` (spec R328, R346). -/
def State.vtrimWrite (s : State) (part c : Nat) (v : W64) : Option State :=
  if !(s.holdsCluster part c) || bfld v 20 44 ≠ 0 || bfld v 0 8 = 0 then none
  else some (s.setClk c { s.clk c with slack := bfld v 0 8 })

/-- `CLK_LIMIT_WRITE` (spec R329). -/
def execClkLimitWrite (part c : Nat) (v : W64) (s : State) : Host.Outcome State Fault Refusal :=
  .next ((s.clkWrite part c v).getD s)

/-! ### The memory stack -/

/-- A die is hot after a sample (spec R331). -/
def hotAfter (was : Bool) (t : Nat) : Bool := decide (85 < t) || (was && decide (83 ≤ t))

/-- A stack after a sample of its dies (spec R331). -/
def Stack.sample (k : Stack) (temps : List Nat) : Stack :=
  { k with
    temps := (List.range 16).map fun i => temps.getD i 0
    hot := BitVec.ofNat 16
      ((List.range 16).foldl (fun a i => if hotAfter (bbit k.hot i) (temps.getD i 0) then a + 2 ^ i else a) 0) }

/-- A field of the error counts grows and saturates. -/
def satField (v : W64) (lo w n : Nat) : W64 := bset v lo w (min (bfld v lo w + n) (2 ^ w - 1))

/-- The error counts of a stack after bus retries, corrected lines and lines delivered with a failing check (spec R194, R331). -/
def Stack.count (k : Stack) (retry corr unc : Nat) : Stack :=
  { k with err := satField (satField (satField k.err 44 20 retry) 24 20 corr) 8 16 unc }

/-- Lines of the device delivered with a check that fails: they stay failing until a whole-line write (spec R194). -/
def Mem.fails (m : Mem) (ls : List Nat) : Mem :=
  { m with bad := m.bad ++ ls.filter fun l => decide (l < 2 ^ 33) && !(m.lineBad l) }

/-- `HBM_TEMP_SAMPLE` (spec R194, R331): the dies' temperatures, and what the codes met since the last sample: retries, corrected lines, and
the lines that fail. -/
def execHbmTempSample (i : Nat) (x : HbmSample) (s : State) : Host.Outcome State Fault Refusal :=
  if 8 ≤ i || x.temps.length ≠ 16 then .next s
  else .next { s.setStack i (((s.stack i).sample x.temps).count x.retry x.corr x.bad.length) with mem := s.mem.fails x.bad }

/-- The lines a stack could transfer in a window, at most its nominal capacity (spec R332). -/
def availOf (avail : List Nat) (i : Nat) : Nat := min (avail.getD i 0) 4096000

/-- The growth of a deficit in a window (spec R332). -/
def deficitGrowth (g : Nat) (avail : List Nat) : Nat :=
  (List.range 8).foldl (fun a i => a + g * (4096000 - availOf avail i) / 1024) 0

/-- A 64-bit count grows and saturates. -/
def satAdd64 (v : W64) (n : Nat) : W64 := BitVec.ofNat 64 (min (v.toNat + n) (2 ^ 64 - 1))

/-- One partition at the end of a share window, with the event its growth may raise (spec R332; log entry 26). -/
def State.sharePart (s : State) (p : Nat) (avail : List Nat) : State :=
  let v := s.part p
  let n := deficitGrowth (bfld v.share 0 10) avail
  let w := { v with deficit := satAdd64 v.deficit n, grew := n ≠ 0 }
  let s1 := s.setPart p w
  if w.grew = v.grew then s1 else s1.event p 0 0x23 (p % 64 + w.deficit.toNat * 2 ^ 64)

/-- `SHARE_WINDOW_END` (spec R332): the counts of accesses begin again (spec R334). -/
def execShareWindowEnd (avail : List Nat) (s : State) : Host.Outcome State Fault Refusal :=
  if avail.length ≠ 8 then .next s
  else
    let s1 := (List.range 8).foldl (fun (t : State) i => t.setStack i { t.stack i with avail := availOf avail i }) s
    let s2 := (s1.parts.map Prod.fst).foldl (fun (t : State) p => t.sharePart p avail) s1
    .next { s2 with mem := { s2.mem with hits := [] } }

/-- A write of `cr.bw.share` (spec R332, R346). -/
def State.shareWrite (s : State) (p : Nat) (v : W64) : Option State :=
  let others := s.parts.foldl (fun (a : Nat) e => if e.1 = p then a else a + bfld e.2.share 0 10) 0
  if (s.part p).st ≠ 1 || bfld v 10 54 ≠ 0 || 1024 < others + v.toNat then none
  else some (s.setPart p { s.part p with share := v })

/-- `BW_SHARE_WRITE` (spec R332). -/
def execBwShareWrite (p : Nat) (v : W64) (s : State) : Host.Outcome State Fault Refusal := .next ((s.shareWrite p v).getD s)

/-- The place of a frame within its stack: a frame number whose own place it is (spec R333). -/
def Stack.placeOf (k : Stack) (f : Nat) : Nat :=
  match SMap.get 0 k.remap f with
  | 0 => f
  | n + 1 => n

/-- A frame takes a place. -/
def Stack.putAt (k : Stack) (f p : Nat) : Stack := { k with remap := SMap.set 0 k.remap f (if p = f then 0 else p + 1) }

/-- The die promotion moves a frame to from die `i`: the lowest-numbered one above it that is not hot (spec R334). -/
def Stack.cooler (k : Stack) (i : Nat) : Option Nat := (rangeFrom (i + 1) (15 - i)).find? fun j => !(bbit k.hot j)

/-- A frame is under scrub. -/
def Mem.scrubbing (m : Mem) (f : Nat) : Bool := m.scrubs.any fun e => e.1 = f

/-- Where a frame's own place lies: 16 times its stack plus its die (log entry 104). -/
def Power.dieOf (p : Power) (f : Nat) : Nat := SMap.get (Config.layout f) p.layout f

/-- A frame lies on a die of a stack now, by the place that the remap table gives it (spec R331, R333). -/
def State.liesOn (s : State) (i f die : Nat) : Bool := decide (die < 16) && s.power.dieOf ((s.stack i).placeOf f) = 16 * i + die

/-- The count of a frame's accesses in this share window (spec R334). -/
def State.hitsOf (s : State) (x : CountedFrame) : Bool := decide (x.frame < 2 ^ 23) && SMap.get 0 s.mem.hits x.frame = x.count

/-- `PROMOTION_SWAP` (spec R333 to R335): both remap entries are locked, where the count of accesses to the first frame reached the limit in
this window and that of the second, on the die of R334, stays below it. A frame under scrub aborts the swap. -/
def execPromotionSwap (i : Nat) (x y : CountedFrame) (dieA dieB : Nat) (s : State) : Host.Outcome State Fault Refusal :=
  let k := s.stack i
  let a := x.frame
  let b := y.frame
  if 8 ≤ i || !s.power.promote || decide (x.count < s.power.thr.toNat) || decide (s.power.thr.toNat ≤ y.count) || k.swap.isSome
      || !(s.hitsOf x) || !(s.hitsOf y) || !(s.liesOn i a dieA) || !(s.liesOn i b dieB) || a = b || k.cooler dieA ≠ some dieB
      || s.mem.locked.contains a || s.mem.locked.contains b || s.mem.scrubbing a || s.mem.scrubbing b then .next s
  else
    let s1 := s.setStack i { k with swap := some (a, b) }
    .next { s1 with mem := { s1.mem with locked := s1.mem.locked ++ [a, b] } }

/-- `SWAP_COMPLETE` (spec R333): the remap entries are exchanged and unlocked; every frame keeps its bytes and checks, but for lines found
uncorrectable in the copy, which are carried with a failing check. -/
def execSwapComplete (e : SwapEnd) (s : State) : Host.Outcome State Fault Refusal :=
  let k := s.stack e.stack
  match k.swap with
  | none => .next s
  | some (a, b) =>
    let found := e.bad.filter fun l => l / 1024 = a || l / 1024 = b
    let k1 := ((k.putAt a (k.placeOf b)).putAt b (k.placeOf a)).count 0 0 found.length
    let s1 := s.setStack e.stack { k1 with swap := none, swaps := min (k.swaps + 1) (2 ^ 26 - 1) }
    .next ({ s1 with mem := { s1.mem.fails found with locked := s1.mem.locked.filter fun f => f ≠ a && f ≠ b } } : State).thaw

/-! ### Chuck's store and the request areas -/

/-- A write of `cr.chuck.ctx` (spec R134, R135). -/
def State.ctxWrite (s : State) (v : W64) : Option State :=
  if bfld v 0 16 < s.entriesHeld || (s.entriesHeld ≠ 0 && bfld v 16 48 ≠ bfld s.chuck.ctx 16 48) then none
  else some { s with chuck := { s.chuck with ctx := v } }

/-- `CHUCK_CTX_WRITE` (spec R134, R135). -/
def execChuckCtxWrite (v : W64) (s : State) : Host.Outcome State Fault Refusal := .next ((s.ctxWrite v).getD s)

/-- `REQ_CAP_WRITE` (spec R272). -/
def execReqCapWrite (x : Nat) (v : W64) (s : State) : Host.Outcome State Fault Refusal :=
  if 64 ≤ x then .next s else .next (s.csrAreaSet (0x140 + x) v)

end Sys2Proof.Machine
end

