-- ==== Sys2Proof/Machine/HostQ.lean ====
section
/-! DEFINITION. The submission queues and the packets that create nodes (spec R21 to R25, R30, R336, R337, R340 to R344): which
queue Mandrel fetches from, the checks of a packet and of an LPB, and the nodes. -/

namespace Sys2Proof.Machine

/-! ### Fields -/

/-- The type of a packet (spec R341). -/
def pktType (p : Pkt) : Nat := bfld p.hdr 0 8

/-- The subtype of a packet. -/
def pktSub (p : Pkt) : Nat := bfld p.hdr 8 8

/-- The node index of a packet. -/
def pktNode (p : Pkt) : Nat := bfld p.hdr 16 16

/-- The predecessor count of a packet. -/
def pktNpred (p : Pkt) : Nat := bfld p.hdr 32 16

/-- The successors a packet names. -/
def pktSucc (p : Pkt) : List Nat := (List.range (bfld p.hdr 48 4)).map fun i => bfld p.hdr (64 + 16 * i) 16

/-- The body words of a packet (spec R342). -/
def pktBody (p : Pkt) : List W64 := [p.q0, p.q1, p.q2, p.q3, p.q4, p.q5]

/-- The 64 bytes of a packet as one number. -/
def pktBits (p : Pkt) : Nat :=
  p.hdr.toNat + p.q0.toNat * 2 ^ 128 + p.q1.toNat * 2 ^ 192 + p.q2.toNat * 2 ^ 256 + p.q3.toNat * 2 ^ 320 + p.q4.toNat * 2 ^ 384
    + p.q5.toNat * 2 ^ 448

/-- The packet that 64 bytes hold. -/
def pktOf (v : Nat) : Pkt :=
  { hdr := BitVec.ofNat 128 v, q0 := BitVec.ofNat 64 (nfld v 128 64), q1 := BitVec.ofNat 64 (nfld v 192 64)
    q2 := BitVec.ofNat 64 (nfld v 256 64), q3 := BitVec.ofNat 64 (nfld v 320 64), q4 := BitVec.ofNat 64 (nfld v 384 64)
    q5 := BitVec.ofNat 64 (nfld v 448 64) }

/-- The ring is in host memory. -/
def Queue.inHost (q : Queue) : Bool := bbit q.qrec 84

/-- The byte offset of the next packet in its ring. -/
def Queue.off (q : Queue) : Nat := q.head % q.entries * 64

/-! ### Which queue is served -/

/-- A fetch from a queue may go on: a submission queue with packets, enabled, nothing held for it (spec R337, R340, R343, R345). -/
def State.fetches (s : State) (i : Nat) (q : Queue) : Bool :=
  s.enabled q && !q.err && !(bbit q.qrec 83) && !q.stopped && decide (q.head < q.tail) && q.comps.isEmpty
    && !(s.host.pend.any fun e => e.1 = some i)

/-- The host page of a queue's next packet: 4 KiB (log entry 95). -/
def Queue.hostPage (q : Queue) : Nat := (bfld q.qrec 0 64 + q.off) / 4096

/-- Mandrel holds the translation of a queue's next packet (spec R336). -/
def State.translated (s : State) (i : Nat) : Bool := s.host.ats.contains ((s.queue i).pasid, (s.queue i).hostPage)

/-- A queue that is ready (spec R340): its next packet can be read, so it waits neither for a page nor for a host translation (spec R186, R336). -/
def State.queueReady (s : State) (i : Nat) (q : Queue) : Bool := s.fetches i q && !q.waits && (!q.inHost || s.translated i)

/-- The ready queue after the one served last, in rotation. -/
def rotate (last : Nat) (l : List Nat) : Option Nat :=
  match l.find? fun i => decide (last ≤ i) with
  | some i => some i
  | none => l.head?

/-- The queue Mandrel fetches from: the highest priority, in rotation within a level (spec R340). -/
def State.nextQueue (s : State) : Option Nat :=
  let ready := s.host.queues.filter fun e => s.queueReady e.1 e.2
  ([7, 6, 5, 4, 3, 2, 1, 0] : List Nat).findSome? fun p =>
    rotate (SMap.get 0 s.host.rot p) ((ready.filter fun e => bfld e.2.qrec 80 3 = p).map Prod.fst)

/-- A packet of the queue may be taken: it is the queue's turn, or the packet began and waits (spec R340). -/
def State.served (s : State) (i : Nat) : Bool := s.nextQueue = some i || ((s.queue i).waits && s.fetches i (s.queue i))

/-! ### Taking a packet -/

/-- What becomes of a packet: it acted, it is malformed, or it waits for a page and is not accepted yet. -/
inductive Taken where
  | ok (s : State)
  | bad (code : Nat) (s : State)
  | hold (s : State)

/-- The queue's fetch is refused: its sibling hears of it, and the queue enters ERROR (spec R336, R344). -/
def State.refuseQueue (s : State) (i : Nat) : State :=
  let s1 := s.handlerPkt i 0 (s.queue i).off 0x06 0
  s1.setQueue i { s1.queue i with err := true }

/-- The packet that a queue began waits, and other queues go on (spec R340). -/
def State.waitQueue (s : State) (i : Nat) : State := if (s.queue i).en then s.setQueue i { s.queue i with waits := true } else s

/-- A read of a queue's packet meets a page that is not resident: one event, and the queue waits (spec R186). -/
def State.holdQueue (s : State) (i va code : Nat) : State :=
  let q := s.queue i
  if q.held = some va then s else (s.pageInEvent q.part q.pasid va code).setQueue i { q with held := some va }

/-- A fetch from a host ring is under way (spec R336, R337, R339, R347). -/
def State.fetching (s : State) (q : Queue) : Bool :=
  s.enabled q && !q.err && q.inHost && !(bbit q.qrec 83) && !q.stopped && decide (q.head < q.tail)

/-- A fetch from a host ring asks for the translation it lacks (spec R336). -/
def State.ask (s : State) (i : Nat) : State :=
  let q := s.queue i
  if s.fetching q && !(s.translated i) && !(s.host.asks.any fun e => e.queue = i && e.live && !e.late) then
    { s with host := { s.host with asks := s.host.asks ++ [{ queue := i, pasid := q.pasid }] } }
  else s

/-- The packet is accepted: the head moves on (spec R340). -/
def State.accept (s : State) (i : Nat) : State :=
  let q := s.queue i
  let s1 := if q.en then s.setQueue i { q with head := q.head + 1, waits := false, held := none } else s
  ({ s1 with host := { s1.host with rot := SMap.set 0 s1.host.rot (bfld q.qrec 80 3) (i + 1) } } : State).ask i

/-- The VA of the packet a queue in device memory holds next. -/
def Queue.pktVa (q : Queue) : Nat := (bfld q.qrec 0 64 + q.off) % 2 ^ 64

/-- The read of a queue's next packet did not succeed: what its walks set stays (spec R184). -/
def State.ringTried (s : State) (i : Nat) : State := s.tried (s.queue i).pasid (s.queue i).pktVa 64 .read

/-- The packet a queue in device memory holds next. -/
def State.ringPkt (s : State) (i : Nat) : Except VFault (Pkt × State) :=
  let q := s.queue i
  match s.readFor q.pasid q.pktVa 64 with
  | .error f => .error f
  | .ok (v, s1) => .ok (pktOf v, s1)

/-- What a packet of a queue does once it is fetched (spec R340, R343). -/
def State.takePkt (s : State) (i : Nat) (p : Pkt) (act : State → Taken) : State :=
  let first := pktBits p % 2 ^ 256
  let off := (s.queue i).off
  match act s with
  | .ok s1 => s1.accept i
  | .bad code s1 => (s1.accept i).handlerPkt i first off code 0
  | .hold s1 => s1.waitQueue i

/-- A packet event: queue `i` is served and its next packet is `p`, of a type the event names. -/
def packet (i : Nat) (p : Pkt) (named : Bool) (act : State → Taken) (s : State) : Host.Outcome State Fault Refusal :=
  if !(s.served i) || !named then .next s
  else if (s.queue i).inHost then (if s.translated i then .next (s.takePkt i p act) else .next s)
  else
    match s.ringPkt i with
    | .error (.pageIn code va) => .next (((s.ringTried i).holdQueue i va code).waitQueue i)
    | .error .frozen => .next ((s.ringTried i).waitQueue i)
    | .error (.mem code va) => .next (((s.ringTried i).nodeSeen (s.queue i).part (s.queue i).pasid va code).refuseQueue i)
    | .error (.parcel _ _) => .next (s.refuseQueue i)
    | .ok (r, s1) => if r = p then .next (s1.takePkt i p act) else .next s

/-! ### The LPB -/

/-- Check 1 of R23. -/
def lpbFieldOk (devid va : Nat) (l : BitVec 2048) : Bool :=
  va % 64 = 0 && lpbF l 0 8 = 1 && lpbF l 712 56 = 0 && lpbF l 548 28 = 0 && lpbF l 31 1 = 0 && lpbF l 12 4 = 0
    && lpbF l 64 64 % 256 = 0 && lpbF l 192 64 % 256 = 0 && lpbF l 320 64 % 256 = 0 && lpbF l 384 64 % 256 = 0
    && (lpbF l 448 64 = 0 || (lpbF l 448 64 % 8 = 0 && homeOf (lpbF l 448 64) = devid))

/-- Checks 2 to 6 of R23. -/
def lpbRangeOk (l : BitVec 2048) : Bool :=
  let n := lpbNstr l
  let w := lpbF l 171 11
  let sp := lpbF l 182 10
  let cube := lpbF l 11 1 = 1
  let k := if cube then n else (n + 7) / 8
  decide (lpbGangs l ≤ 2 ^ 20) && decide (1 ≤ n) && decide (n ≤ 64) && (!cube || decide (n ≤ 8))
    && decide (lpbF l 704 8 ≤ 20) && decide (lpbF l 544 4 ≤ 8) && decide (4 ≤ lpbF l 160 11) && decide (lpbF l 160 11 ≤ w)
    && decide (w ≤ 1024) && decide (sp ≤ 512) && decide (w * k ≤ 1024) && decide (sp * k ≤ 512)
    && decide (w * 256 + sp * 1024 + 1024 ≤ lpbF l 256 32 * 256)

/-- A node index lies in a partition's range (spec R338). -/
def Part.hasNode (v : Part) (n : Nat) : Bool := decide (v.nodeLo ≤ n) && decide (n < v.nodeLo + v.nodeN)

/-- A node and its successors are good for a partition (spec R23, R341). -/
def State.nodeOk (s : State) (part n : Nat) (succ : List Nat) : Bool :=
  (s.part part).hasNode n && (s.node n).st = .free && succ.all (s.part part).hasNode

/-- Reads an LPB for a packet of queue `i` (spec R21, R23, R344): the block, or what becomes of the packet. -/
def State.readLpb (s : State) (i va : Nat) : Except Taken (BitVec 2048 × State) :=
  if va % 64 ≠ 0 then .error (.bad 0x01 s)
  else
    match s.readFor (s.queue i).pasid va 256 with
    | .error (.pageIn code a) => .error (.hold ((s.tried (s.queue i).pasid va 256 .read).holdQueue i a code))
    | .error .frozen => .error (.hold (s.tried (s.queue i).pasid va 256 .read))
    | .error (.mem code a) =>
      .error (.bad 0x06 ((s.tried (s.queue i).pasid va 256 .read).nodeSeen (s.queue i).part (s.queue i).pasid a code))
    | .error (.parcel _ _) => .error (.bad 0x06 s)
    | .ok (v, s1) =>
      let l := BitVec.ofNat 2048 v
      if !(lpbFieldOk s.mem.devid.toNat va l) then .error (.bad 0x01 s1)
      else if !(lpbRangeOk l) then .error (.bad 0x02 s1)
      else .ok (l, s1)

/-! ### Nodes -/

/-- A node is CREATED; with its counter at 0, or created with no predecessor whatever releases came early, it is READY at once (spec R24). -/
def State.createNode (s : State) (n npred : Nat) (v : Node) : State :=
  let ctr := (s.node n).ctr + BitVec.ofNat 16 npred
  let s1 := s.setNode n { v with st := .created, ctr := ctr, order := s.chuck.order }
  let s2 := { s1 with chuck := { s1.chuck with order := s1.chuck.order + 1 } }
  if ctr = 0 || npred = 0 then
    let (more, s3) := s2.becomeReady n
    s3.release more
  else s2

/-- The LAUNCH packet (spec R21 to R24, R341, R342). -/
def State.launch (i : Nat) (p : Pkt) (s : State) : Taken :=
  if bfld p.hdr 8 120 ≠ 0 || (pktBody p).drop 1 ≠ [0, 0, 0, 0, 0] then .bad 0x05 s
  else
    match s.readLpb i p.q0.toNat with
    | .error t => t
    | .ok (l, s1) =>
      let q := s1.queue i
      let n := lpbF l 512 16
      if !(s1.nodeOk q.part n (lpbSucc l)) then .bad 0x03 s1
      else
        .ok (s1.createNode n (lpbF l 528 16)
          { kind := .launch, succ := lpbSucc l, lpb := l, pasid := BitVec.ofNat 20 q.pasid, part := q.part, queue := i })

/-- The checks of a packet that makes a node, then what it reads, and the node (spec R341); `ok` says that its fields, subtype and context
are valid. -/
def State.makeNode (s : State) (i : Nat) (p : Pkt) (ok : Bool) (kind : NKind)
    (read : State → Except Taken (BitVec 2048 × State)) : Taken :=
  let q := s.queue i
  if bfld p.hdr 52 12 ≠ 0 || 4 < bfld p.hdr 48 4 || !ok then .bad 0x05 s
  else if !(s.nodeOk q.part (pktNode p) (pktSucc p)) then .bad 0x03 s
  else
    match read s with
    | .error t => t
    | .ok (l, s1) =>
      .ok (s1.createNode (pktNode p) (pktNpred p)
        { kind := kind, succ := pktSucc p, lpb := l, body := pktBody p, sub := pktSub p, pasid := BitVec.ofNat 20 q.pasid,
          part := q.part, queue := i })

/-- A context field of a class that a partition holds (spec R92, R342). -/
def State.pktCtx (s : State) (part cls count : Nat) (w : W64) : Bool :=
  decide (w.toNat < 65536) && w.toNat / 4096 = cls && decide (w.toNat % 4096 < count) && s.ctxOwn part w.toNat

/-- The COPY packet (spec R223, R342). -/
def State.copyPkt (i : Nat) (p : Pkt) (s : State) : Taken :=
  let ok := pktSub p = 0 && s.pktCtx (s.queue i).part 0 256 p.q0 && p.q1.toNat % 64 = 0 && bfld p.q4 4 60 = 0
    && decide (bfld p.q4 0 4 ≤ 12) && p.q5 = 0
  s.makeNode i p ok .copy fun t => .ok (0, t)

/-- The SIGNAL packet (spec R342). -/
def State.signalPkt (i : Nat) (p : Pkt) (s : State) : Taken :=
  let ok := decide (pktSub p ≤ 1) && p.q0.toNat % 8 = 0 && (pktBody p).drop 2 = [0, 0, 0, 0]
  s.makeNode i p ok .signal fun t => .ok (0, t)

/-- A timeline context exists (spec R92). -/
def ctxValid (c : Nat) : Bool :=
  let x := c % 4096
  match c / 4096 with
  | 0 => decide (x < 256)
  | 1 => decide (x < 8)
  | 2 => decide (x < 64)
  | 3 => decide (x < 16)
  | 4 => decide (x < 24)
  | 5 => true
  | 6 => decide (x < 64)
  | _ => false

/-- The WAIT packet (spec R342). -/
def State.waitPkt (i : Nat) (p : Pkt) (s : State) : Taken :=
  let ok := (if pktSub p = 0 then p.q0.toNat % 8 = 0 else pktSub p = 1 && decide (p.q0.toNat < 65536) && ctxValid p.q0.toNat)
    && (pktBody p).drop 2 = [0, 0, 0, 0]
  s.makeNode i p ok .wait fun t => .ok (0, t)

/-- The REFINE packet (spec R342); its LPB passes checks 1 to 6 of R23 (log entry 31). -/
def State.refinePkt (i : Nat) (p : Pkt) (s : State) : Taken :=
  let ok := pktSub p = 0 && s.pktCtx (s.queue i).part 3 16 p.q0 && p.q1.toNat % 256 = 0 && p.q2.toNat % 64 = 0
    && (pktBody p).drop 3 = [0, 0, 0]
  s.makeNode i p ok .refine fun t => t.readLpb i p.q2.toNat

/-- The CUBE packet (spec R342). -/
def State.cubePkt (i : Nat) (p : Pkt) (s : State) : Taken :=
  let ok := pktSub p = 0 && s.pktCtx (s.queue i).part 1 8 p.q0 && p.q1.toNat % 64 = 0 && p.q2.toNat % 32 = 0 && p.q3.toNat % 32 = 0
    && bfld p.q4 42 22 = 0 && bfld p.q4 0 2 = 0 && bfld p.q4 3 2 ≠ 3 && (!(bbit p.q4 2) || decide (bfld p.q4 5 5 < 8))
    && p.q5.toNat % 4 = 0
  s.makeNode i p ok .cube fun t => .ok (0, t)

/-- `LAUNCH_PACKET` (spec R21 to R24). -/
def execLaunchPacket (i : Nat) (p : Pkt) (s : State) : Host.Outcome State Fault Refusal := packet i p (pktType p = 1) (State.launch i p) s

/-- `COPY_PACKET` (spec R341, R342). -/
def execCopyPacket (i : Nat) (p : Pkt) (s : State) : Host.Outcome State Fault Refusal := packet i p (pktType p = 2) (State.copyPkt i p) s

/-- `SIGNAL_PACKET` (spec R341, R342). -/
def execSignalPacket (i : Nat) (p : Pkt) (s : State) : Host.Outcome State Fault Refusal :=
  packet i p (pktType p = 3) (State.signalPkt i p) s

/-- `WAIT_PACKET` (spec R341, R342). -/
def execWaitPacket (i : Nat) (p : Pkt) (s : State) : Host.Outcome State Fault Refusal := packet i p (pktType p = 4) (State.waitPkt i p) s

/-- `REFINE_PACKET` (spec R341, R342). -/
def execRefinePacket (i : Nat) (p : Pkt) (s : State) : Host.Outcome State Fault Refusal :=
  packet i p (pktType p = 5) (State.refinePkt i p) s

/-- `CUBE_PACKET` (spec R341, R342). -/
def execCubePacket (i : Nat) (p : Pkt) (s : State) : Host.Outcome State Fault Refusal := packet i p (pktType p = 7) (State.cubePkt i p) s

/-- A packet type that R341 does not name. -/
def reservedType (p : Pkt) : Bool := pktType p = 0 || decide (8 ≤ pktType p)

/-- `RESERVED_PACKET_TYPE` (spec R344). -/
def execReservedPacketType (i : Nat) (p : Pkt) (s : State) : Host.Outcome State Fault Refusal :=
  packet i p (reservedType p) (fun t => .bad 0x04 t) s

/-- The value a WAIT node waits for has come (spec R30, R341). -/
def State.waitNodeMet (s : State) (v : Node) : Except VFault (Bool × State) :=
  let n := (v.body.getD 1 0).toNat
  if v.sub = 1 then .ok (decide (n ≤ (s.ctx ((v.body.getD 0 0).toNat % 65536)).counter.toNat), s)
  else
    match s.readFor v.pasid.toNat (v.body.getD 0 0).toNat 8 with
    | .error f => .error f
    | .ok (x, s1) => .ok (decide (n ≤ x), s1)

/-- `WAIT_NODE_SATISFIED` (spec R30). -/
def execWaitNodeSatisfied (n : Nat) (s : State) : Host.Outcome State Fault Refusal :=
  let v := s.node n
  if v.kind ≠ .wait || v.st ≠ .active then .next s
  else
    match s.waitNodeMet v with
    | .error f => .next ((s.tried v.pasid.toNat (v.body.getD 0 0).toNat 8 .read).waitFault n f)
    | .ok (met, s1) => if met then .next (s1.nodeDone n) else .next (s1.setNode n { s1.node n with told := 0 })

/-! ### Doorbells, translation of host rings -/

/-- `QUEUE_TAIL_DOORBELL` (spec R340, R343): for a submission queue the packets written so far, for a handler queue those read; as
counts since the queue was enabled (log entry 32). -/
def execQueueTailDoorbell (i tail : Nat) (s : State) : Host.Outcome State Fault Refusal :=
  let q := s.queue i
  if !(s.enabled q) || tail < q.tail then .next s
  else if bbit q.qrec 83 then
    if q.head < tail then .next s else .next (s.setQueue i { q with tail := tail }).pendRetry
  else if q.head + q.entries < tail then .next s
  else .next ((s.setQueue i { q with tail := tail }).ask i)

/-- A translation completion that comes after the teardown of its PASID is dropped and counted (spec R347). -/
def State.countLate (s : State) : State :=
  { s with host := { s.host with late := bset s.host.late 0 32 (min (bfld s.host.late 0 32 + 1) (2 ^ 32 - 1)) } }

/-- The oldest request of a queue that is not answered: a translation request, or a PRI page request (spec R336, R347). -/
def State.askOf (s : State) (i : Nat) (pri : Bool) : Option Ask := s.host.asks.find? fun e => e.queue = i && e.pri = pri

/-- A request is over. -/
def State.answered (s : State) (e : Ask) : State := { s with host := { s.host with asks := s.host.asks.erase e } }

/-- A request becomes another one in its place. -/
def State.askAgain (s : State) (e f : Ask) : State :=
  { s with host := { s.host with asks := s.host.asks.map fun x => if x = e then f else x } }

/-- A request is one that the queue's fetch waits for: made for this queue, under its PASID, while it fetches (spec R336, R340). -/
def State.awaits (s : State) (i : Nat) (e : Ask) : Bool := e.live && e.pasid = (s.queue i).pasid && s.fetching (s.queue i)

/-- `PRI_TIMEOUT` (spec R336, R344): the PRI page request of a fetch went unanswered. -/
def execPriTimeout (i : Nat) (s : State) : Host.Outcome State Fault Refusal :=
  match s.askOf i true with
  | none => .next s
  | some e => if e.late || !(s.awaits i e) then .next s else .next (s.refuseQueue i)

/-- `PRI_PAGE_RESPONSE` (spec R336, R344, R347): granted, the translation is asked for again; refused, so is the queue. -/
def execPriPageResponse (i : Nat) (granted : Bool) (s : State) : Host.Outcome State Fault Refusal :=
  match s.askOf i true with
  | none => .next s
  | some e =>
    if e.late then .next (s.answered e).countLate
    else if !(s.awaits i e) then .next (s.answered e)
    else if granted then .next (s.askAgain e { e with pri := false })
    else .next ((s.answered e).refuseQueue i)

end Sys2Proof.Machine
end

