-- ==== Sys2Proof/Machine/Mgmt.lean ====
section
/-! DEFINITION. Management requests and their completions (spec R25, R136, R137, R181, R189, R280, R323, R335, R337 to R340, R343,
R345 to R347): register writes, pre-emption, nodes, pages, slots, routes, partitions, queues, functions, PASIDs. -/

namespace Sys2Proof.Machine

/-! ### Completions -/

/-- What a management request does: it answers with a code at once, later, or not yet. -/
inductive Answer where
  | now (code : Nat) (s : State)
  | later (s : State)
  | hold (s : State)

/-- A completion is written under the queue's PASID (spec R345): a page-in stalls it and the queue, any other failure is reported. -/
def State.writeComp (s : State) (c : Comp) : State :=
  match s.wordWrite { part := c.part, pasid := c.pasid, va := c.va.toNat, len := 8, val := c.code, add := false, after := .nothing } with
  | .ok s1 => s1
  | .stall s1 => s1.setQueue c.queue { s1.queue c.queue with comps := (s1.queue c.queue).comps ++ [c] }
  | .fail _ _ s1 =>
    s1.enqueueTo (some c.queue) (s1.sibling c.queue) (hpkt 0 c.first.toNat c.off c.pasid c.queue 0x09)

/-- The completion of a packet of queue `i`, its code still to be set. -/
def State.compOf (s : State) (i : Nat) (p : Pkt) : Comp :=
  let q := s.queue i
  { va := p.q0, code := 0, pasid := q.pasid, part := q.part, queue := i, first := BitVec.ofNat 256 (pktBits p), off := q.off }

/-- A subtype that R345 names. -/
def mgmtSub (n : Nat) : Bool := decide (1 ≤ n) && decide (n ≤ 0x12)

/-- A MGMT packet of subtype `sub` (spec R345, R346). The first subtype also answers the ones R345 does not name. -/
def mgmt (i : Nat) (p : Pkt) (sub : Nat) (act : Comp → State → Answer) (s : State) : Host.Outcome State Fault Refusal :=
  let named := pktType p = 6 && (pktSub p = sub || (sub = 1 && !(mgmtSub (pktSub p))))
  packet i p named (fun t =>
    if !((t.queue i).isPf) then .bad 0x07 t
    else if p.q0 = 0 || p.q0.toNat % 8 ≠ 0 || !(t.isLocal p.q0.toNat) then .bad 0x05 t
    else
      let c := t.compOf i p
      if pktSub p ≠ sub || p.q5 ≠ 0 || bfld p.hdr 52 12 ≠ 0 then .ok (t.writeComp { c with code := 0x07 })
      else
        match act c t with
        | .now code t1 => .ok (t1.writeComp { c with code := code })
        | .later t1 => .ok t1
        | .hold t1 => .hold t1) s

/-- A refused request changes nothing (spec R346). -/
def denied (s : State) : Answer := .now 0x07 s

/-- A request is refused or acts. -/
def answer (s : State) (r : Option State) : Answer :=
  match r with
  | none => denied s
  | some s1 => .now 0 s1

/-- `MGMT_COMPLETION_PAGE_IN_RESUME` (spec R345): the queue's first completion that waits is written once its page is resident. -/
def execMgmtCompletionPageInResume (i : Nat) (s : State) : Host.Outcome State Fault Refusal :=
  match (s.queue i).comps with
  | [] => .next s
  | c :: r => .next ((s.setQueue i { s.queue i with comps := r }).writeComp c)

/-! ### Register writes -/

/-- The bits of a register that take a value, that clear where it holds 1, and that ignore it; a device-wide or a partition's
register with no rule of its own (spec R35, R137, R191, R258, R262, R331, R347, R361). -/
def sysFields (n : Nat) : Nat × Nat × Nat :=
  let all := 2 ^ 64 - 1
  let low (k : Nat) : Nat := 2 ^ k - 1
  let run (lo len : Nat) : Nat := (2 ^ len - 1) * 2 ^ lo
  if n = 0x810 || n = 0x812 then (low 32, 0, 0)
  else if n = 0x811 then (0, low 32, 0)
  else if n = 0x814 then (1, 0, 0)
  else if n = 0x815 then (0, run 39 25, run 30 9 + run 19 3 + low 19)
  else if n = 0x820 then (low 16, 0, 0)
  else if n = 0x830 then (0, run 47 17, run 22 25)
  else if n = 0x832 then (low 25, 0, 0)
  else if n = 0x841 then (0, 0, run 24 40 + run 16 2 + run 8 5 + low 5)
  else if n = 0x871 || n = 0x880 || n = 0x9E0 then (0, all, 0)
  else if n = 0x878 then (low 17, 0, 0)
  else if n = 0x881 then (0, 0, low 6)
  else if 0x868 ≤ n && n < 0x870 then (0, run 8 56, 0)
  else if 0x900 ≤ n && n < 0x980 then (run 33 1 + low 16, run 35 1, run 34 1 + run 16 16)
  else if 0x980 ≤ n && n < 0x9A0 then (run 18 1, run 17 1, low 17)
  else if 0x9A0 ≤ n && n < 0x9A8 then (run 16 16 + run 1 2, 0, run 32 32 + run 3 8)
  else if 0x9A8 ≤ n && n < 0x9B0 then (0, 0, run 11 53)
  else if 0x9B0 ≤ n && n < 0x9C0 then (0, 0, low 16)
  else (0, 0, all)

/-- A register has an instance for each partition (spec R35, R346). -/
def perPart (n : Nat) : Bool := n = 0x810 || n = 0x811 || n = 0x814 || n = 0x815 || n = 0x830 || n = 0x831 || n = 0x832 || n = 0x870 || n = 0x871

/-- A register has an instance for each cluster. -/
def perCluster (n : Nat) : Bool := decide (0x840 ≤ n) && decide (n ≤ 0x842)

/-- A bit that software wrote as 1 clears the count bits it covers. -/
def w1c (old v : W64) (mask : Nat) : W64 := old &&& ~~~(v &&& BitVec.ofNat 64 mask)

/-- A range of parcel slots may belong to a partition (spec R278, R338). -/
def State.slotRangeOk (s : State) (p lo n : Nat) : Bool :=
  decide (lo + n ≤ 4096) && s.parts.all fun e => e.1 = p || n = 0 || decide (lo + n ≤ e.2.pcLo) || decide (e.2.pcLo + e.2.pcN ≤ lo)

/-- A write of a ring's register: the heater code while the loop is open, the loop's enable, LOL; a loop that opens no longer holds
resonance (spec R314, R316, R317; log entry 33). -/
def State.ringWrite (s : State) (n : Nat) (v : W64) : State :=
  let r := s.ring n
  let lock := bbit v 33
  let p := n / 16
  let s1 := s.setRing n { r with
    dac := if r.lock then r.dac else v.setWidth 16
    lock := lock, locked := r.locked && lock, lol := r.lol && !(bbit v 35) }
  if s1.healthy p = s.healthy p then s1 else (s1.forced p).linkTick (16 + p)

/-- A write of a laser's register (spec R315). -/
def State.laserWrite (s : State) (n : Nat) (v : W64) : State :=
  let s1 := if bbit v 17 then s.setLaser n { s.laser n with fail := false } else s
  s1.laserEnable n (bbit v 18)

/-- A write of a port's register: the disabled wavelengths, then the request (spec R318, R320, R321). -/
def State.portWrite (s : State) (p : Nat) (v : W64) : State :=
  let dis : BitVec 16 := BitVec.ofNat 16 (bfld v 16 16)
  let s1 := if dis = (s.spn p).dis then s else s.disWrite p dis
  if bfld v 1 2 = 1 then s1.goDark p else if bfld v 1 2 = 2 then s1.relock p else s1

/-- The effect of a write whose fields are good; none where it breaks a limit (spec R137, R258, R278, R328 to R334, R346). -/
def State.sysSet (s : State) (part c n : Nat) (v : W64) : Option State :=
  let p := s.part part
  match n with
  | 0x810 => some (s.setPart part { p with resv := v.setWidth 32 })
  | 0x811 => some (s.setPart part { p with gerr := p.gerr &&& ~~~(v.setWidth 32) })
  | 0x812 => some { s with chuck := { s.chuck with ptimeout := v.setWidth 32 } }
  | 0x813 => s.ctxWrite v
  | 0x814 => some (s.setPart part { p with spMode := bbit v 0 })
  | 0x815 => some (s.setPart part { p with spLog := w1c p.spLog v ((2 ^ 25 - 1) * 2 ^ 39) })
  | 0x820 => if bfld v 8 4 = 0 then none else some { s with cube := { s.cube with cfg := v } }
  | 0x830 => some (s.setPart part { p with fbLog := w1c p.fbLog v ((2 ^ 17 - 1) * 2 ^ 47) })
  | 0x832 =>
    if 4096 < bfld v 12 13 || !(s.slotRangeOk part (bfld v 0 12) (bfld v 12 13)) then none
    else some (s.setPart part { p with pcLo := bfld v 0 12, pcN := bfld v 12 13 })
  | 0x840 => s.clkWrite part c v
  | 0x842 => s.vtrimWrite part c v
  | 0x870 => s.shareWrite part v
  | 0x871 => some (s.setPart part { p with deficit := w1c p.deficit v (2 ^ 64 - 1) })
  | 0x878 =>
    if bfld v 0 16 = 0 then none
    else some { s with power := { s.power with thr := BitVec.ofNat 16 (bfld v 0 16), promote := bbit v 16 } }
  | 0x880 => some { s with host := { s.host with late := w1c s.host.late v (2 ^ 64 - 1) } }
  | 0x9E0 => some { s with fab := { s.fab with adrop := w1c s.fab.adrop v (2 ^ 64 - 1) } }
  | k =>
    if 0x868 ≤ k && k < 0x870 then
      let t := s.stack (k - 0x868)
      some (s.setStack (k - 0x868) { t with err := w1c t.err v (2 ^ 64 - 1) })
    else if 0x900 ≤ k && k < 0x980 then some (s.ringWrite (k - 0x900) v)
    else if 0x980 ≤ k && k < 0x9A0 then some (s.laserWrite (k - 0x980) v)
    else if 0x9A0 ≤ k && k < 0x9A8 then some (s.portWrite (k - 0x9A0) v)
    else some s

/-- Registers whose fields their own write checks. -/
def ownFields (n : Nat) : Bool := n = 0x813 || n = 0x840 || n = 0x842 || n = 0x870

/-- A register write of system software: none for a refused one (spec R346). -/
def State.sysWrite (s : State) (part c n : Nat) (v : W64) : Option State :=
  let (rw, w1, ro) := sysFields n
  if n < 0x800 || !(csrNamed n) then none
  else if perPart n && (s.part part).st ≠ 1 then none
  else if perCluster n && !(s.holdsCluster part c) then none
  else if !(ownFields n) && (v.toNat &&& (rw ||| w1 ||| ro)) ≠ v.toNat then none
  else s.sysSet part c n v

/-- `MGMT_CSRW` (spec R346). -/
def execMgmtCsrw (i : Nat) (p : Pkt) (s : State) : Host.Outcome State Fault Refusal :=
  mgmt i p 1 (fun _ t =>
    if bfld p.q1 6 10 ≠ 0 || bfld p.q1 28 4 ≠ 0 || bfld p.q1 37 27 ≠ 0 || p.q3 ≠ 0 || p.q4 ≠ 0 then denied t
    else answer t (t.sysWrite (bfld p.q1 0 6) (bfld p.q1 32 5) (bfld p.q1 16 12) p.q2)) s

/-! ### Pre-emption -/

/-- A request reaches a strand: scope 0 strand, 1 gang, 2 launch, 3 partition (spec R136, R346). -/
def Strand.reached (t : Strand) (scope : Nat) (id : W64) : Bool :=
  if scope = 3 then t.id.part = bfld id 0 6
  else
    t.id.launch.toNat = bfld id 0 16
      && (scope = 2 || (t.id.stage.toNat = bfld id 16 8 && t.id.gang.toNat = bfld id 24 20
                          && (scope = 1 || t.id.idx.toNat = bfld id 44 6)))

/-- Pre-emption of a strand begins (spec R136, R145). -/
def State.preemptOne (s : State) (sid : Nat) : State :=
  match s.strand? sid with
  | none => s
  | some t =>
    let t1 := { t with sch := { t.sch with preempt := true, idle := false, idleOn := [] } }
    let s1 := s.setStrand sid t1
    if t.id.state = 2 && t.sch.stop.isNone then s1.stopStrand sid (.suspend t.id.reason false) else s1

/-- Pre-emption of a strand ends: what it held back may run (spec R34, R136). -/
def State.preemptEnd (s : State) (sid : Nat) : State :=
  match s.strand? sid with
  | none => s
  | some t =>
    let s1 := s.setStrand sid { t with sch := { t.sch with preempt := false, held := false, forced := false } }
    let s2 := if t.id.state = 3 && (t.id.reason = 8 || t.sch.held) then s1.makeRunnable sid else s1
    if t.id.state = 8 then s2.formPools t.id.launch.toNat else s2

/-- A pre-emption request (spec R136). -/
def State.preemptReq (s : State) (scope : Nat) (id : W64) (ends : Bool) : State :=
  let l := (s.strands.filter fun e => e.2.id.state ≠ 7 && e.2.reached scope id).map Prod.fst
  l.foldl (fun (t : State) i => if ends then t.preemptEnd i else t.preemptOne i) s

/-- The width of a pre-emption id. -/
def preemptIdBits (scope : Nat) : Nat := if scope = 0 then 50 else if scope = 1 then 44 else if scope = 2 then 16 else 6

/-- `MGMT_PREEMPT` (spec R136, R346). -/
def execMgmtPreempt (i : Nat) (p : Pkt) (s : State) : Host.Outcome State Fault Refusal :=
  mgmt i p 2 (fun _ t =>
    let scope := bfld p.q1 0 2
    if bfld p.q1 2 6 ≠ 0 || bfld p.q1 9 55 ≠ 0 || p.q2.toNat >>> preemptIdBits scope ≠ 0 || p.q3 ≠ 0 || p.q4 ≠ 0 then denied t
    else .now 0 (t.preemptReq scope p.q2 (bbit p.q1 8))) s

/-! ### Nodes -/

/-- The launch of an issuer. -/
def Issuer.launch : Issuer → Nat
  | .strand _ id _ => id.launch.toNat
  | .node n => n

/-- A command, an arm, a SIGNAL node's write or a refinement block of a node is incomplete (spec R25, R289). -/
def State.nodeBusy (s : State) (n : Nat) : Bool :=
  (s.copies.any fun c => c.iss.launch = n) || (s.cube.cmds.any fun c => c.iss.launch = n) || (s.fab.cmds.any fun c => c.node = n)
    || s.blocksOf n || (s.slots.any fun e => (e.2.st = 4 || e.2.st = 5) && e.2.armNode = n) || (s.words.any fun w => w.after = .signal n) || (s.node n).cmds ≠ []

/-- A node returns to FREE: the records Chuck holds are discarded, its counter cleared, and an add at done that waits for its page is not made
(spec R25). -/
def State.freeNode (s : State) (n : Nat) : State :=
  let s1 := ({ s with words := s.words.filter fun w => w.after ≠ .launch n } : State).dropRecords n
  let k := s1.chuck
  ({ s1 with chuck := { k with
    reserved := k.reserved.filter fun r => r.2 ≠ (n, true)
    starting := k.starting.filter (· ≠ n) } } : State).setNode n {}

/-- The answer to `NFREE` by the node's state (spec R25). -/
def State.nfree (s : State) (n : Nat) : Option State :=
  match (s.node n).st with
  | .free => none
  | .done => some (s.freeNode n)
  | .created | .ready | .active | .triggered =>
    if (s.strands.any fun e => e.2.id.launch.toNat = n && e.2.place.resident) || s.nodeBusy n then none else some (s.freeNode n)

/-- `MGMT_NFREE` (spec R25, R345). -/
def execMgmtNfree (i : Nat) (p : Pkt) (s : State) : Host.Outcome State Fault Refusal :=
  mgmt i p 3 (fun _ t =>
    if bfld p.q1 16 48 ≠ 0 || p.q2 ≠ 0 || p.q3 ≠ 0 || p.q4 ≠ 0 then denied t else answer t (t.nfree (bfld p.q1 0 16))) s

/-! ### Pages and frames -/

/-- Leases of a PASID on a range of VAs end (spec R181, R187; log entry 19). -/
def State.inval (s : State) (pasid va n : Nat) : State :=
  { s with
    mem := s.mem.unlearn pasid va n
    strands := s.strands.map fun (e : Nat × Strand) =>
      if e.2.id.pasid.toNat ≠ pasid then e
      else (e.1, { e.2 with q := { e.2.q with
        leases := e.2.q.leases.filter fun l => !(decide (l.va < va + n) && decide (va < l.va + 2 ^ l.lg)) } }) }

/-- `MGMT_INVAL` (spec R181, R346). -/
def execMgmtInval (i : Nat) (p : Pkt) (s : State) : Host.Outcome State Fault Refusal :=
  mgmt i p 4 (fun _ t =>
    if bfld p.q1 20 44 ≠ 0 || p.q2.toNat % 65536 ≠ 0 || bfld p.q3 33 31 ≠ 0 || p.q4 ≠ 0 then denied t
    else .now 0 (t.inval (bfld p.q1 0 20) p.q2.toNat (bfld p.q3 0 32 * 2 ^ (if bbit p.q3 32 then 29 else 16)))) s

/-- The migration of a page starts: round 0 copies every line (spec R189). None where no resident 64 KiB page stands at the VA, or
it already migrates (log entry 34). -/
def State.migrate (s : State) (pasid va frame : Nat) : Option State :=
  if !(s.isLocal va) || 2 ^ 23 ≤ frame then none
  else
    match s.mem.walk pasid va .read with
    | .error _ => none
    | .ok d =>
      if d.lg ≠ 16 || d.pa = frame * 65536 || s.mem.migs.any (fun g => g.old = d.pa || g.new = frame * 65536) then none
      else
        let m := s.mem.copyLines d.pa (frame * 65536) (rangeFrom (d.pa / 64) 1024)
        let g : Mig := { pasid := pasid, va := va, old := d.pa, new := frame * 65536, round := 0, marked := [], frozen := false }
        some { s with mem := { m with migs := m.migs ++ [g] } }

/-- `MGMT_MIGRATE` (spec R189, R346). -/
def execMgmtMigrate (i : Nat) (p : Pkt) (s : State) : Host.Outcome State Fault Refusal :=
  mgmt i p 5 (fun _ t =>
    if bfld p.q1 20 44 ≠ 0 || p.q2.toNat % 65536 ≠ 0 || bfld p.q3 32 32 ≠ 0 || p.q4 ≠ 0 then denied t
    else answer t (t.migrate (bfld p.q1 0 20) p.q2.toNat (bfld p.q3 0 32))) s

/-- `MGMT_SCRUB` (spec R335, R346): it answers when the scrub completes. -/
def execMgmtScrub (i : Nat) (p : Pkt) (s : State) : Host.Outcome State Fault Refusal :=
  mgmt i p 6 (fun c t =>
    if 2 ^ 23 ≤ p.q1.toNat || p.q2 ≠ 0 || p.q3 ≠ 0 || p.q4 ≠ 0 then denied t
    else .later { t with mem := { t.mem with scrubs := t.mem.scrubs ++ [(p.q1.toNat, c)] } }) s

/-- An address lies in a frame. -/
def inFrame (f a : Nat) : Bool := decide (f * 65536 ≤ a) && decide (a < f * 65536 + 65536)

/-- Every line of a frame becomes zero with a good check (spec R335). -/
def Mem.zeroFrame (m : Mem) (f : Nat) : Mem :=
  ({ m with cells := m.cells.filter fun c => !(inFrame f c.1), bad := m.bad.filter fun l => !(inFrame f (64 * l)) } : Mem).mark
    (rangeFrom (f * 1024) 1024)

/-- No fetch of a strand holds bytes of a frame from before it was scrubbed (spec R103, R335). -/
def Strand.scrubbed (t : Strand) (f : Nat) : Strand := { t with fetched := t.fetched.filter fun c => !(inFrame f c.1) }

/-- `SCRUB_COMPLETE` (spec R335): a swap that was locked first is over. -/
def execScrubComplete (f : Nat) (s : State) : Host.Outcome State Fault Refusal :=
  match s.mem.scrubs.find? fun e => e.1 = f with
  | none => .next s
  | some e =>
    if s.mem.locked.contains f then .next s
    else
      let s1 : State := { s with mem := { s.mem.zeroFrame f with scrubs := s.mem.scrubs.erase e }
                                 strands := s.strands.map fun (x : Nat × Strand) => (x.1, x.2.scrubbed f) }
      .next (s1.writeComp e.2)

/-! ### Slots and routes -/

/-- The commit of the `POST` that holds a slot was sent (spec R290). -/
def State.commitSent (s : State) (x : Nat) : Bool :=
  s.fab.cmds.any fun c => match c.kind with
    | .post h _ _ _ _ => c.st = 2 && bfld h 0 12 = x
    | .store _ _ _ _ | .lines _ _ _ _ | .atom _ _ _ _ _ _ | .req _ _ | .coll _ _ | .drain _ => false

/-- A slot is revoked: its generation advances (spec R280, R290). -/
def State.revoke (s : State) (x : Nat) : State :=
  let v := s.slot x
  if v.st = 0 then s.setSlot x v.advance
  else if v.st = 4 || v.st = 5 then (s.endArm x 7).fabTick
  else if (v.st = 2 || v.st = 3) && s.commitSent x then s.setSlot x v.advance
  else (s.setSlot x v.free).fabTick

/-- Parcel accesses that passed their check on a slot have still to perform (spec R291). -/
def State.slotBusy (s : State) (x : Nat) : Bool := s.strands.any fun e => e.2.q.accs.any fun a => a.slot = some x

/-- `MGMT_REVOKE` (spec R280, R291, R346): it acts once the accesses to the extent have performed. -/
def execMgmtRevoke (i : Nat) (p : Pkt) (s : State) : Host.Outcome State Fault Refusal :=
  mgmt i p 7 (fun _ t =>
    if 4096 ≤ p.q1.toNat || p.q2 ≠ 0 || p.q3 ≠ 0 || p.q4 ≠ 0 then denied t
    else if t.slotBusy p.q1.toNat then .hold t
    else .now 0 (t.revoke p.q1.toNat)) s

/-- A link number of a routing entry: a link, or none. -/
def routeLinkOk (x : Nat) : Bool := decide (x < 24) || x = 0x1F

/-- `MGMT_ROUTE` (spec R323, R346). -/
def execMgmtRoute (i : Nat) (p : Pkt) (s : State) : Host.Outcome State Fault Refusal :=
  mgmt i p 8 (fun _ t =>
    if 2048 ≤ p.q1.toNat || bfld p.q2 13 51 ≠ 0 || bfld p.q2 5 3 ≠ 0 || !(routeLinkOk (bfld p.q2 0 5)) || !(routeLinkOk (bfld p.q2 8 5))
        || p.q3 ≠ 0 || p.q4 ≠ 0 then denied t
    else
      .now 0 ({ t with links := { t.links with
        routes := SMap.set 0x1F1F t.links.routes p.q1.toNat (p.q2.setWidth 32) } } : State).fabTick) s

/-! ### Partitions -/

/-- Another partition holds something. -/
def State.othersHold (s : State) (p : Nat) (f : Part → Bool) : Bool := s.parts.any fun e => e.1 ≠ p && f e.2

/-- `MGMT_PCREATE` (spec R338, R346). -/
def execMgmtPcreate (i : Nat) (p : Pkt) (s : State) : Host.Outcome State Fault Refusal :=
  mgmt i p 9 (fun _ t =>
    let k := p.q1.toNat
    let lo := p.q3.toNat
    let n := p.q4.toNat
    if 64 ≤ k || p.q2 = 0 || 65536 ≤ lo || n = 0 || 65536 < n || 65536 < lo + n || (t.part k).st ≠ 0
        || t.othersHold k (fun v => v.halves &&& p.q2 ≠ 0)
        || t.othersHold k (fun v => v.nodeN ≠ 0 && decide (lo < v.nodeLo + v.nodeN) && decide (v.nodeLo < lo + n)) then denied t
    else .now 0 (t.setPart k { st := 1, halves := p.q2, nodeLo := lo, nodeN := n })) s

/-- The bits `[lo, lo + n)`. -/
def bitRun (lo n : Nat) : Nat := (2 ^ n - 1) * 2 ^ lo

/-- Resources join a partition: none where they do not exist or belong to another (spec R338, R346). -/
def State.assignTo (s : State) (p kind lo n : Nat) : Option State :=
  let v := s.part p
  let m := bitRun lo n
  let put (count : Nat) (f : Part → Nat) (w : Part) : Option State :=
    if count ≤ lo || count < lo + n || s.othersHold p (fun o => f o &&& m ≠ 0) then none else some (s.setPart p w)
  if v.st ≠ 1 then none
  else
    match kind with
    | 0 => if lo ≠ 0 || n ≠ 1 || s.othersHold p Part.cube then none else some (s.setPart p { v with cube := true })
    | 1 => put 64 (fun o => o.fab.toNat) { v with fab := v.fab ||| BitVec.ofNat 64 m }
    | 2 => put 16 (fun o => o.rlc.toNat) { v with rlc := v.rlc ||| BitVec.ofNat 16 m }
    | 3 => put 64 (fun o => o.area.toNat) { v with area := v.area ||| BitVec.ofNat 64 m }
    | 4 => if lo < 4096 && s.slotRangeOk p lo n then some (s.setPart p { v with pcLo := lo, pcN := n }) else none
    | 5 => put 16 (fun o => o.ual.toNat) { v with ual := v.ual ||| BitVec.ofNat 16 m }
    | 6 => put 8 (fun o => o.spn.toNat) { v with spn := v.spn ||| BitVec.ofNat 8 m }
    | _ => none

/-- `MGMT_PASSIGN` (spec R338, R346). -/
def execMgmtPassign (i : Nat) (p : Pkt) (s : State) : Host.Outcome State Fault Refusal :=
  mgmt i p 0x0A (fun _ t =>
    if bfld p.q1 6 2 ≠ 0 || bfld p.q1 16 48 ≠ 0 || 8192 ≤ p.q2.toNat || 8192 ≤ p.q3.toNat || p.q4 ≠ 0 then denied t
    else answer t (t.assignTo (bfld p.q1 0 6) (bfld p.q1 8 8) p.q2.toNat p.q3.toNat)) s

/-- Queues that a condition admits stop. -/
def State.stopQueues (s : State) (f : Queue → Bool) (down : Bool) : State :=
  let stop (e : Nat × Queue) : Nat × Queue :=
    if f e.2 then (e.1, { e.2 with stopped := true, down := e.2.down || down }) else e
  { s with host := { s.host with queues := s.host.queues.map stop } }

/-- The teardown of a PASID ends (spec R347): its queues are down, what is still unanswered will come late, nothing of it stays in the cache of host
translations, and a handler packet that waits for one of its host rings is dropped and counted. -/
def State.pasidDown (s : State) (pasid : Nat) : State :=
  let s1 := s.stopQueues (fun q => q.en && q.pasid = pasid) true
  let h := s1.host
  ({ s1 with host := { h with asks := h.asks.map fun e => if e.pasid = pasid then { e with late := true } else e
                              ats := h.ats.filter fun x => x.1 ≠ pasid } } : State).pendRetry

/-- A queue of a function that belongs to a partition (spec R337, R339). -/
def Queue.ofPart (q : Queue) (p : Nat) : Bool := q.en && !q.isPf && q.part = p

/-- Strands of a partition that hold a slot leave it (spec R339): each suspends at its bundle boundary. -/
def State.clearStrand (s : State) (sid : Nat) : State :=
  match s.strand? sid with
  | none => s
  | some t =>
    let s1 := s.setStrand sid { t with sch := { t.sch with preempt := true, idle := false, idleOn := [] } }
    if t.place.resident && t.id.state ≠ 7 && t.sch.stop.isNone then s1.stopStrand sid (.suspend 8 true) else s1

/-- Teardown of a partition begins: its queues stop, the records that hold no slot are discarded, and its other strands are pre-empted, each
discarded once it is suspended (spec R339). -/
def State.teardown (s : State) (p : Nat) : State :=
  let v := s.part p
  let s1 := (s.setPart p { v with st := 2 }).stopQueues (fun q => q.ofPart p) false
  let s2 := ((s1.chuck.nodes.map Prod.fst).filter v.hasNode).foldl (fun (t : State) n => t.dropRecords n) s1
  ((s2.strands.filter fun e => e.2.id.part = p).map Prod.fst).foldl (fun (t : State) i => t.clearStrand i) s2

/-- `MGMT_PTEARDOWN` (spec R339, R346). -/
def execMgmtPteardown (i : Nat) (p : Pkt) (s : State) : Host.Outcome State Fault Refusal :=
  mgmt i p 0x0B (fun _ t =>
    if 64 ≤ p.q1.toNat || p.q2 ≠ 0 || p.q3 ≠ 0 || p.q4 ≠ 0 || (t.part p.q1.toNat).st ≠ 1 then denied t
    else .now 0 (t.teardown p.q1.toNat)) s

/-- Engine commands of a partition that are incomplete (spec R339). -/
def State.partBusy (s : State) (p : Nat) : Bool :=
  (s.copies.any fun c => s.partOf c.iss = p) || (s.cube.cmds.any fun c => s.partOf c.iss = p) || (s.fab.cmds.any fun c => c.part = p)
    || s.rlcs.any fun e => e.2.queue.any fun r => r.part = p

/-- The PASIDs of a partition. -/
def State.partPasids (s : State) (p : Nat) : List Nat := (s.host.queues.filter fun e => e.2.ofPart p).map fun e => e.2.pasid

/-- The rest of a teardown: slots revoked, nodes freed, PASIDs torn down, and the partition FREE with every
resource and register as at reset (spec R280, R339, R347; log entry 35). -/
def State.teardownEnd (s : State) (p : Nat) : State :=
  let v := s.part p
  let s2 := (rangeFrom v.pcLo v.pcN).foldl (fun (t : State) x => t.revoke x) s
  let s3 := ((s2.chuck.nodes.map Prod.fst).filter v.hasNode).foldl (fun (t : State) n => t.freeNode n) s2
  let s4 := (s3.partPasids p).foldl State.pasidDown s3
  let s5 := { s4 with
    words := s4.words.filter fun w => w.part ≠ p
    host := { s4.host with vfmap := s4.host.vfmap.filter fun e => e.2 ≠ some p } }
  (s5.setPart p {}).holdPass

/-- `PARTITION_TEARDOWN_COMPLETE` (spec R339). -/
def execPartitionTeardownComplete (p : Nat) (s : State) : Host.Outcome State Fault Refusal :=
  if (s.part p).st ≠ 2 || (s.strands.any fun e => e.2.id.part = p && e.2.place.resident) || s.partBusy p then .next s
  else .next (s.teardownEnd p).fabTick

/-! ### Queues, functions, PASIDs -/

/-- A queue record is good (spec R340, R346). -/
def State.recordOk (s : State) (r : BitVec 512) : Bool :=
  bfld r 128 384 = 0 && bfld r 64 16 = 0 && decide (4 ≤ bfld r 85 5) && decide (bfld r 85 5 ≤ 16)
    && bfld r 0 64 % ((if bbit r 83 then 128 else 64) * 2 ^ bfld r 85 5) = 0
    && (bbit r 83 || ((s.queue (bfld r 90 12)).en && bbit (s.queue (bfld r 90 12)).qrec 83))

/-- `MGMT_QCREATE` (spec R340, R346). -/
def execMgmtQcreate (i : Nat) (p : Pkt) (s : State) : Host.Outcome State Fault Refusal :=
  mgmt i p 0x0C (fun c t =>
    let k := bfld p.q2 0 12
    let fn := bfld p.q2 16 8
    if p.q1.toNat % 64 ≠ 0 || bfld p.q2 12 4 ≠ 0 || bfld p.q2 24 40 ≠ 0 || 193 < fn || p.q3 ≠ 0 || p.q4 ≠ 0 || (t.queue k).en then denied t
    else
      match t.readFor c.pasid p.q1.toNat 64 with
      | .error (.pageIn code va) => .hold ((t.tried c.pasid p.q1.toNat 64 .read).holdQueue i va code)
      | .error .frozen => .hold (t.tried c.pasid p.q1.toNat 64 .read)
      | .error (.mem code va) => denied ((t.tried c.pasid p.q1.toNat 64 .read).nodeSeen c.part c.pasid va code)
      | .error (.parcel _ _) => denied t
      | .ok (v, t1) =>
        let r : BitVec 512 := BitVec.ofNat 512 v
        if t1.recordOk r then .now 0 (t1.setQueue k { qrec := r, fn := fn, en := true }) else denied t1) s

/-- A queue is gone: its own handler packets that wait and its requests go with it, and a queue whose packet waits for it enters ERROR
(spec R340, R343). -/
def State.destroyQueue (s : State) (k : Nat) : State :=
  let s1 := s.setQueue k {}
  let h := s1.host
  ({ s1 with host := { h with pend := h.pend.filter fun e => e.1 ≠ some k
                              asks := h.asks.map fun e => if e.queue = k then { e with live := false } else e } } : State).pendRetry

/-- `MGMT_QDESTROY` (spec R340, R346). -/
def execMgmtQdestroy (i : Nat) (p : Pkt) (s : State) : Host.Outcome State Fault Refusal :=
  mgmt i p 0x0D (fun _ t =>
    let k := p.q1.toNat
    if 4096 ≤ k || p.q2 ≠ 0 || p.q3 ≠ 0 || p.q4 ≠ 0 || !(t.queue k).en then denied t
    else .now 0 (t.destroyQueue k)) s

/-- A VF is mapped to a partition: the fetches of its queues ask for the translations they lack (spec R336, R337). -/
def State.mapVf (s : State) (vf p : Nat) : State :=
  let s1 : State := { s with host := { s.host with vfmap := SMap.set none s.host.vfmap vf (some p) } }
  ((s1.host.queues.filter fun e => e.2.fn = vf + 2).map Prod.fst).foldl State.ask s1

/-- `MGMT_VFMAP` (spec R337, R346). -/
def execMgmtVfmap (i : Nat) (p : Pkt) (s : State) : Host.Outcome State Fault Refusal :=
  mgmt i p 0x0E (fun _ t =>
    if 192 ≤ p.q1.toNat || 64 ≤ p.q2.toNat || p.q3 ≠ 0 || p.q4 ≠ 0 || (t.part p.q2.toNat).st ≠ 1 then denied t
    else .now 0 (t.mapVf p.q1.toNat p.q2.toNat)) s

/-- `MGMT_PASIDDOWN` (spec R347): every queue of the PASID stops; it answers when the teardown completes. -/
def execMgmtPasiddown (i : Nat) (p : Pkt) (s : State) : Host.Outcome State Fault Refusal :=
  mgmt i p 0x0F (fun c t =>
    if 2 ^ 20 ≤ p.q1.toNat || p.q2 ≠ 0 || p.q3 ≠ 0 || p.q4 ≠ 0 then denied t
    else
      let t1 := t.stopQueues (fun q => q.en && q.pasid = p.q1.toNat) false
      .later { t1 with host := { t1.host with downs := t1.host.downs ++ [(p.q1.toNat, c)] } }) s

/-- `PASIDDOWN_COMPLETE` (spec R347): its requests are over, or 1 ms has passed. -/
def execPasiddownComplete (pasid : Nat) (s : State) : Host.Outcome State Fault Refusal :=
  match s.host.downs.find? fun e => e.1 = pasid with
  | none => .next s
  | some e =>
    let s1 : State := { s with host := { s.host with downs := s.host.downs.erase e } }
    .next ((s1.pasidDown pasid).writeComp e.2)

/-- `MGMT_EVQ` (spec R343, R346). -/
def execMgmtEvq (i : Nat) (p : Pkt) (s : State) : Host.Outcome State Fault Refusal :=
  mgmt i p 0x10 (fun _ t =>
    if 64 ≤ p.q1.toNat || 4096 ≤ p.q2.toNat || p.q3 ≠ 0 || p.q4 ≠ 0 || (t.part p.q1.toNat).st ≠ 1 then denied t
    else .now 0 (t.setPart p.q1.toNat { t.part p.q1.toNat with evq := some p.q2.toNat })) s

end Sys2Proof.Machine
end

