-- ==== Sys2Proof/Machine/Firmware.lean ====
section
/-! DEFINITION. Firmware, attestation, host translations, host writes and reset (spec R1, R192, R230, R231, R336, R347 to R351). -/

namespace Sys2Proof.Machine

/-! ### Patch sets and attestation -/

/-- An entry of a patch set: after the 64-byte header (spec R348). -/
def PatchSet.entry (x : PatchSet) (i : Nat) : W32 := BitVec.ofNat 32 (nfld x.image (8 * 64 + 32 * i) 32)

/-- The count of patch-store words of a set, 4 bytes each (spec R348; log entry 15). -/
def PatchSet.words (x : PatchSet) : Nat := (x.len - 1152) / 4

/-- A patch-store word of a set: after the entries (spec R348). -/
def PatchSet.word (x : PatchSet) (i : Nat) : W32 := BitVec.ofNat 32 (nfld x.image (8 * 1088 + 32 * i) 32)

/-- The image has the layout of a patch set: header, 256 entries with their zero bits, at most 1,024 patch-store words, signature
(spec R348). -/
def PatchSet.ok (x : PatchSet) : Bool :=
  decide (1152 ≤ x.len) && x.len % 4 = 0 && decide (x.words ≤ 1024) && (List.range 256).all fun i => bfld (x.entry i) 22 9 = 0

/-- The signature in the image's last 64 bytes, r and s of 32 bytes each, verifies for the digest of everything before it under the fused
key (spec R348; log entry 15). -/
def PatchSet.signed (x : PatchSet) : Bool :=
  let n := x.len - 64
  ({ x := Config.patchKey.1, y := Config.patchKey.2 } : Key).verifies (digestNum (toBytes n x.image)) (nfld x.image (8 * n) 256)
    (nfld x.image (8 * n + 256) 256)

/-- The jump that an entry puts in the place of a control-store word, if it is valid and names that address (spec R348). -/
def jumpOf (e : W32) (a : Nat) : Option Nat := if bbit e 31 && bfld e 0 12 = a then some (bfld e 12 10) else none

/-- What Mandrel runs at a control-store address: the patch-store word that the first valid entry for it jumps to, else the ROM's word
(spec R348). -/
def State.controlWord (s : State) (a : Nat) : W32 :=
  match (List.range 256).findSome? fun i => jumpOf (SMap.get 0 s.host.patches i) a with
  | some k => SMap.get 0 s.host.patchStore k
  | none => Config.rom a

/-- `MGMT_PSTAGE` (spec R348, R349): the image is copied, and its layout and its signature are checked. -/
def execMgmtPstage (i : Nat) (p : Pkt) (s : State) : Host.Outcome State Fault Refusal :=
  mgmt i p 0x11 (fun c t =>
    let n := p.q2.toNat
    if p.q1.toNat % 64 ≠ 0 || 2 ^ 32 ≤ n || p.q3 ≠ 0 || p.q4 ≠ 0 || t.host.pending.isSome then denied t
    else
      match t.readFor c.pasid p.q1.toNat n with
      | .error (.pageIn code va) => .hold ((t.tried c.pasid p.q1.toNat n .read).holdQueue i va code)
      | .error .frozen => .hold t
      | .error (.mem code va) => denied ((t.tried c.pasid p.q1.toNat n .read).nodeSeen c.part c.pasid va code)
      | .error (.parcel _ _) => denied t
      | .ok (v, t1) =>
        let x : PatchSet := { len := n, image := v }
        if x.ok && x.signed then .now 0 { t1 with host := { t1.host with pending := some x } }
        else .now 0x08 t1) s

/-- `PATCH_HANDOVER` (spec R348, R349): a verified set becomes active between two packets: it fills the patch RAM and the patch store. -/
def execPatchHandover (s : State) : Host.Outcome State Fault Refusal :=
  match s.host.pending with
  | none => .next s
  | some x =>
    .next { s with host := { s.host with
      active := some x, pending := none
      patches := (List.range 256).foldl (fun m i => SMap.set 0 m i (x.entry i)) []
      patchStore := (List.range x.words).foldl (fun m i => SMap.set 0 m i (x.word i)) [] } }

/-- SHA-256 of a patch set's image; zero for none (spec R350; log entry 15). -/
def setDigest : Option PatchSet → BitVec 256
  | none => 0
  | some x => sha256 (toBytes x.len x.image)

/-- SHA-256 of the control-store ROM, its words in order of 4 bytes each (spec R350; log entry 15). -/
def romHash : BitVec 256 := sha256 ((List.range 4096).flatMap fun a => toBytes 4 (Config.rom a).toNat)

/-- The signature of the first 192 bytes of a report under the device attestation key, r and s of 32 bytes each, with the number drawn for it
(spec R350; log entry 15). -/
def reportSignature (body : BitVec 1536) (draw : Vec) : BitVec 512 :=
  let sig := signWith Config.deviceKey (1 + draw.toNat % (P256.n - 1)) (digestNum (toBytes 192 body.toNat))
  BitVec.ofNat 512 (sig.1 + sig.2 * 2 ^ 256)

/-- What the configuration hash covers: the partition table, the cube's map and layers, the routing table (spec R350). -/
def State.configWords (s : State) : List Nat :=
  (s.parts.flatMap fun e =>
      [e.1, e.2.st, e.2.halves.toNat, e.2.nodeLo, e.2.nodeN, b2n e.2.cube, e.2.fab.toNat, e.2.rlc.toNat, e.2.area.toNat,
       e.2.ual.toNat, e.2.spn.toNat, e.2.pcLo, e.2.pcN, e.2.share.toNat])
    ++ [s.cube.map.toNat, s.cube.layers.toNat] ++ s.links.routes.flatMap fun e => [e.1, e.2.toNat]

/-- The first 192 bytes of a report (spec R350). -/
def State.reportBody (s : State) (nonce : Nat) : BitVec 1536 :=
  BitVec.ofNat 1536
    (romHash.toNat + (setDigest s.host.active).toNat * 2 ^ 256 + (setDigest s.host.pending).toNat * 2 ^ 512
      + b2n s.host.pending.isSome * 2 ^ 768 + (sha256 (Config.configBytes s.configWords)).toNat * 2 ^ 1024 + nonce % 2 ^ 256 * 2 ^ 1280)

/-- `MGMT_ATTEST` (spec R350): the nonce is latched with what the report describes; it answers when the report is written. -/
def execMgmtAttest (i : Nat) (p : Pkt) (s : State) : Host.Outcome State Fault Refusal :=
  mgmt i p 0x12 (fun c t =>
    if p.q2.toNat % 64 ≠ 0 || p.q3 ≠ 0 || p.q4 ≠ 0 then denied t
    else
      match t.readFor c.pasid p.q1.toNat 32 with
      | .error (.pageIn code va) => .hold (t.holdQueue i va code)
      | .error .frozen => .hold t
      | .error (.mem code va) => denied ((t.tried c.pasid p.q1.toNat 32 .read).nodeSeen c.part c.pasid va code)
      | .error (.parcel _ _) => denied t
      | .ok (v, t1) =>
        .later { t1 with host := { t1.host with
          attests := t1.host.attests ++ [{ report := p.q2, comp := c, body := t1.reportBody v }] } }) s

/-- A report cannot be written: the request is answered as refused (log entry 36). -/
def State.attestFails (s : State) (c : Comp) : State := s.writeComp { c with code := 0x07 }

/-- `ATTEST_REPORT_SIGNED` (spec R350): the oldest report is signed and written, and its request answered. -/
def execAttestReportSigned (s : State) : Host.Outcome State Fault Refusal :=
  match s.host.attests with
  | [] => .next s
  | a :: r =>
    let s0 := { s with host := { s.host with attests := r } }
    if !(s.isLocal a.report.toNat) then .next (s0.attestFails a.comp)
    else
      let w := s0.tried a.comp.pasid a.report.toNat 256 .write
      match s0.translate a.comp.pasid a.report.toNat 256 .write with
      | .error (.pageIn code va) => .next (({ s with mem := w.mem } : State).pageInEvent a.comp.part a.comp.pasid va code)
      | .error .frozen => .next s
      | .error (.mem code va) => .next ((w.nodeSeen a.comp.part a.comp.pasid va code).attestFails a.comp)
      | .error (.parcel _ _) => .next (s0.attestFails a.comp)
      | .ok (segs, s1) =>
        let v := a.body.toNat + (reportSignature a.body (Config.freeVec s1.free)).toNat * 2 ^ 1536
        .next (({ s1 with free := s1.free + 1, mem := (s1.mem.scatter segs v).1 } : State).writeComp a.comp)

/-! ### Host translations -/

/-- The management request of a packet, by its subtype (spec R345). -/
def mgmtAny (i : Nat) (p : Pkt) (s : State) : Host.Outcome State Fault Refusal :=
  match pktSub p with
  | 2 => execMgmtPreempt i p s
  | 3 => execMgmtNfree i p s
  | 4 => execMgmtInval i p s
  | 5 => execMgmtMigrate i p s
  | 6 => execMgmtScrub i p s
  | 7 => execMgmtRevoke i p s
  | 8 => execMgmtRoute i p s
  | 9 => execMgmtPcreate i p s
  | 10 => execMgmtPassign i p s
  | 11 => execMgmtPteardown i p s
  | 12 => execMgmtQcreate i p s
  | 13 => execMgmtQdestroy i p s
  | 14 => execMgmtVfmap i p s
  | 15 => execMgmtPasiddown i p s
  | 16 => execMgmtEvq i p s
  | 17 => execMgmtPstage i p s
  | 18 => execMgmtAttest i p s
  | _ => execMgmtCsrw i p s

/-- A packet by its type (spec R341). -/
def packetAny (i : Nat) (p : Pkt) (s : State) : Host.Outcome State Fault Refusal :=
  match pktType p with
  | 1 => execLaunchPacket i p s
  | 2 => execCopyPacket i p s
  | 3 => execSignalPacket i p s
  | 4 => execWaitPacket i p s
  | 5 => execRefinePacket i p s
  | 6 => mgmtAny i p s
  | 7 => execCubePacket i p s
  | _ => execReservedPacketType i p s

/-- `ATS_COMPLETION` (spec R336, R347): the translation is cached and the fetch of `p` from a host ring goes on, or, with none, it failed and a
PRI page request is made; a completion during or after the teardown of the PASID is discarded, and counted after it. -/
def execAtsCompletion (i : Nat) (p : Option Pkt) (s : State) : Host.Outcome State Fault Refusal :=
  match s.askOf i false with
  | none => .next s
  | some e =>
    if e.late then .next (s.answered e).countLate
    else if !(s.awaits i e) then .next (s.answered e)
    else
      match p with
      | none => .next (s.askAgain e { e with pri := true })
      | some x =>
        let s1 := s.answered e
        packetAny i x { s1 with host := { s1.host with ats := s1.host.ats ++ [((s.queue i).pasid, (s.queue i).hostPage)] } }

/-! ### Reset and host writes -/

/-- The logical layer count for a mask of failed layers (spec R230). -/
def layerCount (pfail : BitVec 9) : Nat :=
  let good := 9 - popCount 9 pfail.toNat
  if good < 7 then 0 else min 8 good

/-- `cr.cube.layers` after the test (spec R230, R231). -/
def bootLayers (pfail spared : BitVec 9) : W64 :=
  BitVec.ofNat 64 (layerCount pfail + popCount 9 pfail.toNat * 2 ^ 4 + spared.toNat * 2 ^ 16)

/-- `cr.cube.map` after the test (spec R230, R231). -/
def bootMap (pfail : BitVec 9) : W64 :=
  let phys := ((List.range 9).filter fun p => !(bbit pfail p)).take (layerCount pfail)
  BitVec.ofNat 64
    ((List.range 8).foldl (fun a l => a + phys.getD l 0xF * 2 ^ (4 * l)) 0 + pfail.toNat * 2 ^ 32)

/-- The rail of a cluster after trimming, inside its limits (spec R327, R328, R351). -/
def bootClks (rails : List Nat) : SMap Clk :=
  (List.range 32).foldl (fun m c => SMap.set {} m c { rail := boundTo 550 950 (rails.getD c 800) }) []

/-- `DEVICE_RESET` (spec R351): the state after reset, with what the boot tests found; what the outside still does to the device
stays listed, and the device id stays. -/
def execDeviceReset (pfail spared : BitVec 9) (rails : List Nat) (s : State) : Host.Outcome State Fault Refusal :=
  let r := State.reset
  .next { r with
    agenda := s.agenda, free := s.free, mem := { r.mem with devid := s.mem.devid }
    cube := { r.cube with layers := bootLayers pfail spared, map := bootMap pfail }
    power := { r.power with clks := bootClks rails, layout := s.power.layout } }

/-- The window of a host's BAR that takes the record of PF queue 0 of each link (spec R351; log entry 37). -/
def barQueue : Nat := 2 ^ 40

/-- The window that takes the root entries, 8 bytes for each PASID (spec R182; log entry 37). -/
def barRoot : Nat := 2 ^ 41

/-- The window that takes the device id (spec R180; log entry 37). -/
def barDevid : Nat := 2 ^ 42

/-- `HOST_WRITE` (spec R192, R336): bytes in memory, or a record, a root or the device id through the BAR's windows. -/
def execHostWrite (pa : Nat) (bytes : List Byte) (s : State) : Host.Outcome State Fault Refusal :=
  let n := bytes.length
  if pa + n ≤ 2 ^ 39 then
    if n = 0 then .next s else .next (s.hostPut pa bytes)
  else if (pa = barQueue || pa = barQueue + 64) && n = 64 then
    .next (s.setQueue ((pa - barQueue) / 64) { qrec := BitVec.ofNat 512 (ofBytes bytes), fn := (pa - barQueue) / 64, en := true })
  else if barRoot ≤ pa && pa < barRoot + 2 ^ 23 && pa % 8 = 0 && n = 8 then
    let x := (pa - barRoot) / 8
    .next { s with mem := { s.mem.forget (2 ^ 48 + x) 1 with roots := SMap.set 0 s.mem.roots x (BitVec.ofNat 64 (ofBytes bytes)) } }
  else if pa = barDevid && n = 2 then .next { s with mem := { s.mem with devid := BitVec.ofNat 11 (ofBytes bytes) } }
  else .fault (.outsideMemory pa)

end Sys2Proof.Machine
end

