-- ==== Sys2Proof/Machine/Scalar.lean ====
section
/-! DEFINITION. Scalar arithmetic: the short and long S forms and the SI forms (spec R104 to R109). -/

namespace Sys2Proof.Machine

/-! ### Results -/

/-- A value as `i64`, or as `n64` when U is set (spec R107). -/
def asNum (u : Bool) (a : W64) : Int := if u then (a.toNat : Int) else a.toInt

/-- `MULH` (spec R106). -/
def mulhV (u : Bool) (a b : W64) : W64 := BitVec.ofInt 64 (asNum u a * asNum u b / ((2 ^ 64 : Nat) : Int))

/-- `DIV` (spec R107). -/
def divV (u : Bool) (a b : W64) : W64 :=
  if b = 0 then BitVec.allOnes 64 else BitVec.ofInt 64 ((asNum u a).tdiv (asNum u b))

/-- `REM` (spec R107). -/
def remV (u : Bool) (a b : W64) : W64 :=
  if b = 0 then a else BitVec.ofInt 64 ((asNum u a).tmod (asNum u b))

/-- The condition a < b (spec R106). -/
def ltV (u : Bool) (a b : W64) : Bool := decide (asNum u a < asNum u b)

/-- A Bool as a 64-bit result. -/
def boolV (b : Bool) : W64 := if b then 1 else 0

/-- The shift amount of a shift form (spec R106). -/
def shAmt (b : W64) : Nat := bfld b 0 6

/-- The carry-less product, 128 bits (spec R107). -/
def clmulV (a b : W64) : Nat := clmulNat 64 a.toNat b.toNat

/-- The bytes of a value in reverse order (spec R106). -/
def bswapV (a : W64) : W64 := BitVec.ofNat 64 (ofBytes (toBytes 8 a.toNat).reverse)

/-- The width of a `SEXT` or `ZEXT` code (spec R106). -/
def extW (b : Spec) : Nat := 8 * 2 ^ b.toNat

/-- `BFX` (spec R108). -/
def bfxV (m : BitVec 22) (a : W64) : W64 :=
  let len := bfld m 9 7
  let v := bfld a (bfld m 16 6) len
  if bbit m 8 then sext64 len v else BitVec.ofNat 64 v

/-- `BFI` (spec R108). -/
def bfiV (m : BitVec 22) (d a : W64) : W64 := bset d (bfld m 16 6) (bfld m 9 7) a.toNat

/-- `LEA` (spec R108). -/
def leaV (m : BitVec 22) (a b : W64) : W64 := a + (b <<< bfld m 19 3) + sext64 19 (bfld m 0 19)

/-- An SI immediate, sign-extended (spec R109). -/
def immS (i : BitVec 10) : W64 := i.signExtend 64

/-- `MOVHI` (spec R109). -/
def movhiV (sh : BitVec 2) (imm : BitVec 16) (a : W64) : W64 := bset a (16 * sh.toNat) 16 imm.toNat

/-! ### Short forms -/

/-- `ADD`: a + b (spec R106). -/
def execAdd (f : SForm) (s : State) : Host.Outcome State Fault Refusal :=
  runOp (Op.formS f fun a b => a + b) s

/-- `SUB`: a − b (spec R106). -/
def execSub (f : SForm) (s : State) : Host.Outcome State Fault Refusal :=
  runOp (Op.formS f fun a b => a - b) s

/-- `MUL`: the low half of a × b (spec R106). -/
def execMul (f : SForm) (s : State) : Host.Outcome State Fault Refusal :=
  runOp (Op.formS f fun a b => a * b) s

/-- `MULH`: the high half of the product (spec R106). -/
def execMulh (f : SForm) (s : State) : Host.Outcome State Fault Refusal :=
  runOp (Op.formS f fun a b => mulhV f.u a b) s

/-- `DIV`: the quotient (spec R107). -/
def execDiv (f : SForm) (s : State) : Host.Outcome State Fault Refusal :=
  runOp (Op.formS f fun a b => divV f.u a b) s

/-- `REM`: the remainder (spec R107). -/
def execRem (f : SForm) (s : State) : Host.Outcome State Fault Refusal :=
  runOp (Op.formS f fun a b => remV f.u a b) s

/-- `MIN`: the lesser (spec R106). -/
def execMin (f : SForm) (s : State) : Host.Outcome State Fault Refusal :=
  runOp (Op.formS f fun a b => if ltV f.u b a then b else a) s

/-- `MAX`: the greater (spec R106). -/
def execMax (f : SForm) (s : State) : Host.Outcome State Fault Refusal :=
  runOp (Op.formS f fun a b => if ltV f.u a b then b else a) s

/-- `AND`: a ∧ b (spec R106). -/
def execAnd (f : SForm) (s : State) : Host.Outcome State Fault Refusal :=
  runOp (Op.formS f fun a b => a &&& b) s

/-- `OR`: a ∨ b (spec R106). -/
def execOr (f : SForm) (s : State) : Host.Outcome State Fault Refusal :=
  runOp (Op.formS f fun a b => a ||| b) s

/-- `XOR`: a ⊕ b (spec R106). -/
def execXor (f : SForm) (s : State) : Host.Outcome State Fault Refusal :=
  runOp (Op.formS f fun a b => a ^^^ b) s

/-- `ANDN`: a ∧ ¬b (spec R106). -/
def execAndn (f : SForm) (s : State) : Host.Outcome State Fault Refusal :=
  runOp (Op.formS f fun a b => a &&& ~~~ b) s

/-- `ORN`: a ∨ ¬b (spec R106). -/
def execOrn (f : SForm) (s : State) : Host.Outcome State Fault Refusal :=
  runOp (Op.formS f fun a b => a ||| ~~~ b) s

/-- `SHL`: a shifted left (spec R106). -/
def execShl (f : SForm) (s : State) : Host.Outcome State Fault Refusal :=
  runOp (Op.formS f fun a b => a <<< shAmt b) s

/-- `SHR`: a shifted right, zeros entering (spec R106). -/
def execShr (f : SForm) (s : State) : Host.Outcome State Fault Refusal :=
  runOp (Op.formS f fun a b => a >>> shAmt b) s

/-- `SAR`: a shifted right, copies of its sign entering (spec R106). -/
def execSar (f : SForm) (s : State) : Host.Outcome State Fault Refusal :=
  runOp (Op.formS f fun a b => a.sshiftRight (shAmt b)) s

/-- `ROL`: a rotated left (spec R106). -/
def execRol (f : SForm) (s : State) : Host.Outcome State Fault Refusal :=
  runOp (Op.formS f fun a b => a.rotateLeft (shAmt b)) s

/-- `ROR`: a rotated right (spec R106). -/
def execRor (f : SForm) (s : State) : Host.Outcome State Fault Refusal :=
  runOp (Op.formS f fun a b => a.rotateRight (shAmt b)) s

/-- `CLMUL`: the low half of the carry-less product (spec R107). -/
def execClmul (f : SForm) (s : State) : Host.Outcome State Fault Refusal :=
  runOp (Op.formS f fun a b => BitVec.ofNat 64 (clmulV a b)) s

/-- `CLMULH`: the high half of the carry-less product (spec R107). -/
def execClmulh (f : SForm) (s : State) : Host.Outcome State Fault Refusal :=
  runOp (Op.formS f fun a b => BitVec.ofNat 64 (clmulV a b >>> 64)) s

/-- `CMP.eq`: 1 if a = b (spec R106). -/
def execCmpEq (f : SForm) (s : State) : Host.Outcome State Fault Refusal :=
  runOp (Op.formS f fun a b => boolV (decide (a = b))) s

/-- `CMP.ne`: 1 if a ≠ b (spec R106). -/
def execCmpNe (f : SForm) (s : State) : Host.Outcome State Fault Refusal :=
  runOp (Op.formS f fun a b => boolV (decide (a ≠ b))) s

/-- `CMP.lt`: 1 if a < b (spec R106). -/
def execCmpLt (f : SForm) (s : State) : Host.Outcome State Fault Refusal :=
  runOp (Op.formS f fun a b => boolV (ltV f.u a b)) s

/-- `CMP.ge`: 1 if a ≥ b (spec R106). -/
def execCmpGe (f : SForm) (s : State) : Host.Outcome State Fault Refusal :=
  runOp (Op.formS f fun a b => boolV (!(ltV f.u a b))) s

/-- `CLZ`: leading zeros (spec R106). -/
def execClz (f : SForm) (s : State) : Host.Outcome State Fault Refusal :=
  runOp (Op.formS1 f fun a => BitVec.ofNat 64 (leadZeros 64 a.toNat)) s

/-- `CTZ`: trailing zeros (spec R106). -/
def execCtz (f : SForm) (s : State) : Host.Outcome State Fault Refusal :=
  runOp (Op.formS1 f fun a => BitVec.ofNat 64 (trailZeros 64 a.toNat)) s

/-- `POPC`: one bits (spec R106). -/
def execPopc (f : SForm) (s : State) : Host.Outcome State Fault Refusal :=
  runOp (Op.formS1 f fun a => BitVec.ofNat 64 (popCount 64 a.toNat)) s

/-- `BREV`: the bits reversed (spec R106). -/
def execBrev (f : SForm) (s : State) : Host.Outcome State Fault Refusal :=
  runOp (Op.formS1 f fun a => BitVec.ofNat 64 (revBits 64 a.toNat)) s

/-- `BSWAP`: the bytes reversed (spec R106). -/
def execBswap (f : SForm) (s : State) : Host.Outcome State Fault Refusal :=
  runOp (Op.formS1 f fun a => bswapV a) s

/-- `MOV`: a (spec R106). -/
def execMov (f : SForm) (s : State) : Host.Outcome State Fault Refusal :=
  runOp (Op.formS1 f fun a => a) s

/-- `SEXT`: the low bits sign-extended (spec R106). -/
def execSext (f : SForm) (s : State) : Host.Outcome State Fault Refusal :=
  runOp (Op.formS1 f fun a => ext64 true (extW f.b) a.toNat) s

/-- `ZEXT`: the low bits zero-extended (spec R106). -/
def execZext (f : SForm) (s : State) : Host.Outcome State Fault Refusal :=
  runOp (Op.formS1 f fun a => ext64 false (extW f.b) a.toNat) s

/-! ### Long forms -/

/-- `BFX`: a bit field, extended (spec R108). -/
def execBfx (f : LForm) (s : State) : Host.Outcome State Fault Refusal :=
  runOp (do
    let a ← Op.readS f.a 10
    Op.hint f.ru f.pb [(false, f.a)]
    Op.writeS f.d 16 (bfxV f.mod a)) s

/-- `BFI`: the low bits of a put into a field of d (spec R108). -/
def execBfi (f : LForm) (s : State) : Host.Outcome State Fault Refusal :=
  runOp (do
    let d ← Op.readS f.d 16
    let a ← Op.readS f.a 10
    Op.hint f.ru f.pb [(false, f.d), (false, f.a)]
    Op.writeS f.d 16 (bfiV f.mod d a)) s

/-- `SEL`: a when c is not zero, else b (spec R108). -/
def execSel (f : LForm) (s : State) : Host.Outcome State Fault Refusal :=
  runOp (do
    let (a, b) ← Op.readAB f.a f.b
    let c ← Op.readS f.c 54
    Op.hint f.ru f.pb [(false, f.a), (false, f.b), (false, f.c)]
    Op.writeS f.d 16 (if c ≠ 0 then a else b)) s

/-- `LEA`: a + (b << sh) + disp, no translation (spec R108). -/
def execLea (f : LForm) (s : State) : Host.Outcome State Fault Refusal :=
  runOp (do
    let (a, b) ← Op.readAB f.a f.b
    Op.hint f.ru f.pb [(false, f.a), (false, f.b)]
    Op.writeS f.d 16 (leaV f.mod a b)) s

/-! ### Immediate forms -/

/-- `ADDI`: a + imm (spec R109). -/
def execAddi (f : IForm) (s : State) : Host.Outcome State Fault Refusal :=
  runOp (Op.formI f fun a i => a + immS i) s

/-- `ANDI`: a ∧ imm (spec R109). -/
def execAndi (f : IForm) (s : State) : Host.Outcome State Fault Refusal :=
  runOp (Op.formI f fun a i => a &&& immS i) s

/-- `ORI`: a ∨ imm (spec R109). -/
def execOri (f : IForm) (s : State) : Host.Outcome State Fault Refusal :=
  runOp (Op.formI f fun a i => a ||| immS i) s

/-- `XORI`: a ⊕ imm (spec R109). -/
def execXori (f : IForm) (s : State) : Host.Outcome State Fault Refusal :=
  runOp (Op.formI f fun a i => a ^^^ immS i) s

/-- `SHLI`: a shifted left (spec R109). -/
def execShli (f : IForm) (s : State) : Host.Outcome State Fault Refusal :=
  runOp (Op.formI f fun a i => a <<< bfld i 0 6) s

/-- `SHRI`: a shifted right, zeros entering (spec R109). -/
def execShri (f : IForm) (s : State) : Host.Outcome State Fault Refusal :=
  runOp (Op.formI f fun a i => a >>> bfld i 0 6) s

/-- `MOVI`: the immediate, sign-extended (spec R109). -/
def execMovi (d : Spec) (imm : BitVec 19) (s : State) : Host.Outcome State Fault Refusal :=
  runOp (Op.writeS d 19 (imm.signExtend 64)) s

/-- `MOVHI`: one 16-bit part of a replaced (spec R109). -/
def execMovhi (f : HForm) (s : State) : Host.Outcome State Fault Refusal :=
  runOp (do
    let a ← Op.readS f.a 13
    Op.hint f.ru f.pb [(false, f.a)]
    Op.writeS f.d 19 (movhiV f.sh f.imm a)) s

end Sys2Proof.Machine
end

