-- ==== Sys2Proof/Machine/Dispatch.lean ====
section
/-! DEFINITION. Dispatch: the meaning of each constructor of `Instr`. -/

namespace Sys2Proof.Machine

/-- The meaning of an instruction or event of spec/opcode_table.json. -/
def exec (i : Instr) (s : State) : Host.Outcome State Fault Refusal :=
  match i with
  | .add f => Sys2Proof.Machine.execAdd f s
  | .sub f => Sys2Proof.Machine.execSub f s
  | .mul f => Sys2Proof.Machine.execMul f s
  | .mulh f => Sys2Proof.Machine.execMulh f s
  | .div f => Sys2Proof.Machine.execDiv f s
  | .rem f => Sys2Proof.Machine.execRem f s
  | .min f => Sys2Proof.Machine.execMin f s
  | .max f => Sys2Proof.Machine.execMax f s
  | .and f => Sys2Proof.Machine.execAnd f s
  | .or f => Sys2Proof.Machine.execOr f s
  | .xor f => Sys2Proof.Machine.execXor f s
  | .andn f => Sys2Proof.Machine.execAndn f s
  | .orn f => Sys2Proof.Machine.execOrn f s
  | .shl f => Sys2Proof.Machine.execShl f s
  | .shr f => Sys2Proof.Machine.execShr f s
  | .sar f => Sys2Proof.Machine.execSar f s
  | .rol f => Sys2Proof.Machine.execRol f s
  | .ror f => Sys2Proof.Machine.execRor f s
  | .clz f => Sys2Proof.Machine.execClz f s
  | .ctz f => Sys2Proof.Machine.execCtz f s
  | .popc f => Sys2Proof.Machine.execPopc f s
  | .brev f => Sys2Proof.Machine.execBrev f s
  | .bswap f => Sys2Proof.Machine.execBswap f s
  | .clmul f => Sys2Proof.Machine.execClmul f s
  | .clmulh f => Sys2Proof.Machine.execClmulh f s
  | .mov f => Sys2Proof.Machine.execMov f s
  | .sext f => Sys2Proof.Machine.execSext f s
  | .zext f => Sys2Proof.Machine.execZext f s
  | .cmpEq f => Sys2Proof.Machine.execCmpEq f s
  | .cmpNe f => Sys2Proof.Machine.execCmpNe f s
  | .cmpLt f => Sys2Proof.Machine.execCmpLt f s
  | .cmpGe f => Sys2Proof.Machine.execCmpGe f s
  | .bfx f => Sys2Proof.Machine.execBfx f s
  | .bfi f => Sys2Proof.Machine.execBfi f s
  | .sel f => Sys2Proof.Machine.execSel f s
  | .lea f => Sys2Proof.Machine.execLea f s
  | .addi f => Sys2Proof.Machine.execAddi f s
  | .andi f => Sys2Proof.Machine.execAndi f s
  | .ori f => Sys2Proof.Machine.execOri f s
  | .xori f => Sys2Proof.Machine.execXori f s
  | .shli f => Sys2Proof.Machine.execShli f s
  | .shri f => Sys2Proof.Machine.execShri f s
  | .movi d imm => Sys2Proof.Machine.execMovi d imm s
  | .movhi f => Sys2Proof.Machine.execMovhi f s
  | .br off => Sys2Proof.Machine.execBr off s
  | .brc f => Sys2Proof.Machine.execBrc f s
  | .brv f => Sys2Proof.Machine.execBrv f s
  | .call off => Sys2Proof.Machine.execCall off s
  | .calli a pb => Sys2Proof.Machine.execCalli a pb s
  | .ret => Sys2Proof.Machine.execRet s
  | .enter g => Sys2Proof.Machine.execEnter g s
  | .loop f => Sys2Proof.Machine.execLoop f s
  | .loopn a pb n => Sys2Proof.Machine.execLoopn a pb n s
  | .suspend => Sys2Proof.Machine.execSuspend s
  | .yield => Sys2Proof.Machine.execYield s
  | .spawn a b pb => Sys2Proof.Machine.execSpawn a b pb s
  | .stage => Sys2Proof.Machine.execStage s
  | .trig => Sys2Proof.Machine.execTrig s
  | .exit => Sys2Proof.Machine.execExit s
  | .nop => Sys2Proof.Machine.execNop s
  | .trap code => Sys2Proof.Machine.execTrap code s
  | .trapfence => Sys2Proof.Machine.execTrapfence s
  | .phint f => Sys2Proof.Machine.execPhint f s
  | .csrr f => Sys2Proof.Machine.execCsrr f s
  | .csrw f => Sys2Proof.Machine.execCsrw f s
  | .csrs f => Sys2Proof.Machine.execCsrs f s
  | .csrc f => Sys2Proof.Machine.execCsrc f s
  | .view v base => Sys2Proof.Machine.execView v base s
  | .rotcfg f => Sys2Proof.Machine.execRotcfg f s
  | .rotate k => Sys2Proof.Machine.execRotate k s
  | .rft => Sys2Proof.Machine.execRft s
  | .idle => Sys2Proof.Machine.execIdle s
  | .synci => Sys2Proof.Machine.execSynci s
  | .spalloc f => Sys2Proof.Machine.execSpalloc f s
  | .spfree f => Sys2Proof.Machine.execSpfree f s
  | .fadd f => Sys2Proof.Machine.execFadd f s
  | .fsub f => Sys2Proof.Machine.execFsub f s
  | .fmul f => Sys2Proof.Machine.execFmul f s
  | .fma f => Sys2Proof.Machine.execFma f s
  | .fms f => Sys2Proof.Machine.execFms f s
  | .fnma f => Sys2Proof.Machine.execFnma f s
  | .fnms f => Sys2Proof.Machine.execFnms f s
  | .fmin f => Sys2Proof.Machine.execFmin f s
  | .fmax f => Sys2Proof.Machine.execFmax f s
  | .fabs f => Sys2Proof.Machine.execFabs f s
  | .fneg f => Sys2Proof.Machine.execFneg f s
  | .fcpys f => Sys2Proof.Machine.execFcpys f s
  | .fdiv f => Sys2Proof.Machine.execFdiv f s
  | .fsqrt f => Sys2Proof.Machine.execFsqrt f s
  | .frcp f => Sys2Proof.Machine.execFrcp f s
  | .frsq f => Sys2Proof.Machine.execFrsq f s
  | .fexp2 f => Sys2Proof.Machine.execFexp2 f s
  | .flog2 f => Sys2Proof.Machine.execFlog2 f s
  | .ftanh f => Sys2Proof.Machine.execFtanh f s
  | .fcmp f => Sys2Proof.Machine.execFcmp f s
  | .fclass f => Sys2Proof.Machine.execFclass f s
  | .fscale f => Sys2Proof.Machine.execFscale f s
  | .fround f => Sys2Proof.Machine.execFround f s
  | .fcvt f => Sys2Proof.Machine.execFcvt f s
  | .fcvti f => Sys2Proof.Machine.execFcvti f s
  | .icvtf f => Sys2Proof.Machine.execIcvtf f s
  | .fsumr f => Sys2Proof.Machine.execFsumr f s
  | .fdot f => Sys2Proof.Machine.execFdot f s
  | .fbscale f => Sys2Proof.Machine.execFbscale f s
  | .fpacksd f => Sys2Proof.Machine.execFpacksd f s
  | .funpacksd f => Sys2Proof.Machine.execFunpacksd f s
  | .normacc f => Sys2Proof.Machine.execNormacc f s
  | .vadd f => Sys2Proof.Machine.execVadd f s
  | .vsub f => Sys2Proof.Machine.execVsub f s
  | .vmul f => Sys2Proof.Machine.execVmul f s
  | .vmulh f => Sys2Proof.Machine.execVmulh f s
  | .vmadd f => Sys2Proof.Machine.execVmadd f s
  | .vdot4 f => Sys2Proof.Machine.execVdot4 f s
  | .vmin f => Sys2Proof.Machine.execVmin f s
  | .vmax f => Sys2Proof.Machine.execVmax f s
  | .vabs f => Sys2Proof.Machine.execVabs f s
  | .vand f => Sys2Proof.Machine.execVand f s
  | .vor f => Sys2Proof.Machine.execVor f s
  | .vxor f => Sys2Proof.Machine.execVxor f s
  | .vandn f => Sys2Proof.Machine.execVandn f s
  | .vshl f => Sys2Proof.Machine.execVshl f s
  | .vshr f => Sys2Proof.Machine.execVshr f s
  | .vsar f => Sys2Proof.Machine.execVsar f s
  | .vcmp f => Sys2Proof.Machine.execVcmp f s
  | .vsel f => Sys2Proof.Machine.execVsel f s
  | .vbcast f => Sys2Proof.Machine.execVbcast f s
  | .vperm f => Sys2Proof.Machine.execVperm f s
  | .vshuf f => Sys2Proof.Machine.execVshuf f s
  | .vrot f => Sys2Proof.Machine.execVrot f s
  | .vslide f => Sys2Proof.Machine.execVslide f s
  | .vcompress f => Sys2Proof.Machine.execVcompress f s
  | .vexpand f => Sys2Proof.Machine.execVexpand f s
  | .vscan f => Sys2Proof.Machine.execVscan f s
  | .vpopc f => Sys2Proof.Machine.execVpopc f s
  | .vclz f => Sys2Proof.Machine.execVclz f s
  | .vclmul f => Sys2Proof.Machine.execVclmul f s
  | .vmsk f => Sys2Proof.Machine.execVmsk f s
  | .vpack f => Sys2Proof.Machine.execVpack f s
  | .vunpack f => Sys2Proof.Machine.execVunpack f s
  | .vsat f => Sys2Proof.Machine.execVsat f s
  | .vextr f => Sys2Proof.Machine.execVextr f s
  | .vins f => Sys2Proof.Machine.execVins f s
  | .viota f => Sys2Proof.Machine.execViota f s
  | .ldI8 f => Sys2Proof.Machine.execLdI8 f s
  | .ldI16 f => Sys2Proof.Machine.execLdI16 f s
  | .ldI32 f => Sys2Proof.Machine.execLdI32 f s
  | .ldN8 f => Sys2Proof.Machine.execLdN8 f s
  | .ldN16 f => Sys2Proof.Machine.execLdN16 f s
  | .ldN32 f => Sys2Proof.Machine.execLdN32 f s
  | .ldI64 f => Sys2Proof.Machine.execLdI64 f s
  | .stI8 f => Sys2Proof.Machine.execStI8 f s
  | .stI16 f => Sys2Proof.Machine.execStI16 f s
  | .stI32 f => Sys2Proof.Machine.execStI32 f s
  | .stI64 f => Sys2Proof.Machine.execStI64 f s
  | .ldsI8 f => Sys2Proof.Machine.execLdsI8 f s
  | .ldsI16 f => Sys2Proof.Machine.execLdsI16 f s
  | .ldsI32 f => Sys2Proof.Machine.execLdsI32 f s
  | .ldsN8 f => Sys2Proof.Machine.execLdsN8 f s
  | .ldsN16 f => Sys2Proof.Machine.execLdsN16 f s
  | .ldsN32 f => Sys2Proof.Machine.execLdsN32 f s
  | .ldsI64 f => Sys2Proof.Machine.execLdsI64 f s
  | .stsI8 f => Sys2Proof.Machine.execStsI8 f s
  | .stsI16 f => Sys2Proof.Machine.execStsI16 f s
  | .stsI32 f => Sys2Proof.Machine.execStsI32 f s
  | .stsI64 f => Sys2Proof.Machine.execStsI64 f s
  | .ldv f => Sys2Proof.Machine.execLdv f s
  | .stv f => Sys2Proof.Machine.execStv f s
  | .ldsv f => Sys2Proof.Machine.execLdsv f s
  | .stsv f => Sys2Proof.Machine.execStsv f s
  | .touch f => Sys2Proof.Machine.execTouch f s
  | .qmark => Sys2Proof.Machine.execQmark s
  | .fence tok scope => Sys2Proof.Machine.execFence tok scope s
  | .waitf d tok u => Sys2Proof.Machine.execWaitf d tok u s
  | .waitfComplete sid => Sys2Proof.Machine.execWaitfComplete sid s
  | .ldAcq f => Sys2Proof.Machine.execLdAcq f s
  | .stRel f => Sys2Proof.Machine.execStRel f s
  | .gather f => Sys2Proof.Machine.execGather f s
  | .scatter f => Sys2Proof.Machine.execScatter f s
  | .aadd f => Sys2Proof.Machine.execAadd f s
  | .amin f => Sys2Proof.Machine.execAmin f s
  | .amax f => Sys2Proof.Machine.execAmax f s
  | .alog f => Sys2Proof.Machine.execAlog f s
  | .axchg f => Sys2Proof.Machine.execAxchg f s
  | .acas f => Sys2Proof.Machine.execAcas f s
  | .mred f => Sys2Proof.Machine.execMred f s
  | .mcas f => Sys2Proof.Machine.execMcas f s
  | .msacc f => Sys2Proof.Machine.execMsacc f s
  | .tlwait f => Sys2Proof.Machine.execTlwait f s
  | .tlread f => Sys2Proof.Machine.execTlread f s
  | .tlreadErr f => Sys2Proof.Machine.execTlreadErr f s
  | .nestw f => Sys2Proof.Machine.execNestw f s
  | .copyn f => Sys2Proof.Machine.execCopyn f s
  | .copyPageInResume ctx => Sys2Proof.Machine.execCopyPageInResume ctx s
  | .copyCommandComplete ctx n => Sys2Proof.Machine.execCopyCommandComplete ctx n s
  | .cnest f => Sys2Proof.Machine.execCnest f s
  | .cdesc f => Sys2Proof.Machine.execCdesc f s
  | .cubeMm f => Sys2Proof.Machine.execCubeMm f s
  | .cplane f => Sys2Proof.Machine.execCplane f s
  | .cmode f => Sys2Proof.Machine.execCmode f s
  | .czero f => Sys2Proof.Machine.execCzero f s
  | .cfill f => Sys2Proof.Machine.execCfill f s
  | .cdrain f => Sys2Proof.Machine.execCdrain f s
  | .crprog f => Sys2Proof.Machine.execCrprog f s
  | .ccode f => Sys2Proof.Machine.execCcode f s
  | .ccodeswap f => Sys2Proof.Machine.execCcodeswap f s
  | .cresume f => Sys2Proof.Machine.execCresume f s
  | .cresumeAbandon f => Sys2Proof.Machine.execCresumeAbandon f s
  | .cubeStop ctx mismatch => Sys2Proof.Machine.execCubeStop ctx mismatch s
  | .cubeWaitingRestart ctx => Sys2Proof.Machine.execCubeWaitingRestart ctx s
  | .cubeCommandComplete ctx => Sys2Proof.Machine.execCubeCommandComplete ctx s
  | .steadyWindowSample temps => Sys2Proof.Machine.execSteadyWindowSample temps s
  | .fst f => Sys2Proof.Machine.execFst f s
  | .fstv f => Sys2Proof.Machine.execFstv f s
  | .fatom f => Sys2Proof.Machine.execFatom f s
  | .ffadd f => Sys2Proof.Machine.execFfadd f s
  | .freq f => Sys2Proof.Machine.execFreq f s
  | .fbar f => Sys2Proof.Machine.execFbar f s
  | .fbarAdd f => Sys2Proof.Machine.execFbarAdd f s
  | .fbwait f => Sys2Proof.Machine.execFbwait f s
  | .fcoll f => Sys2Proof.Machine.execFcoll f s
  | .fcwait f => Sys2Proof.Machine.execFcwait f s
  | .fdrain f => Sys2Proof.Machine.execFdrain f s
  | .fhold f => Sys2Proof.Machine.execFhold f s
  | .frelease f => Sys2Proof.Machine.execFrelease f s
  | .palloc f => Sys2Proof.Machine.execPalloc f s
  | .pfree f => Sys2Proof.Machine.execPfree f s
  | .pld f => Sys2Proof.Machine.execPld f s
  | .pst f => Sys2Proof.Machine.execPst f s
  | .post f => Sys2Proof.Machine.execPost f s
  | .precvArm f => Sys2Proof.Machine.execPrecvArm f s
  | .precv f => Sys2Proof.Machine.execPrecv f s
  | .pstat f => Sys2Proof.Machine.execPstat f s
  | .refine f => Sys2Proof.Machine.execRefine f s
  | .rlstat f => Sys2Proof.Machine.execRlstat f s
  | .rlabort f => Sys2Proof.Machine.execRlabort f s
  | .rlrung f => Sys2Proof.Machine.execRlrung f s
  | .rlcBlockStart ctx => Sys2Proof.Machine.execRlcBlockStart ctx s
  | .rlcStageEnd ctx => Sys2Proof.Machine.execRlcStageEnd ctx s
  | .rlcBlockExit ctx => Sys2Proof.Machine.execRlcBlockExit ctx s
  | .gangPlacement => Sys2Proof.Machine.execGangPlacement s
  | .clusterReservation => Sys2Proof.Machine.execClusterReservation s
  | .strandSlotFree sid => Sys2Proof.Machine.execStrandSlotFree sid s
  | .contextEntryGrant => Sys2Proof.Machine.execContextEntryGrant s
  | .waitSpinExpiry sid => Sys2Proof.Machine.execWaitSpinExpiry sid s
  | .waitTargetSatisfied sid => Sys2Proof.Machine.execWaitTargetSatisfied sid s
  | .agingPriorityRaise sid => Sys2Proof.Machine.execAgingPriorityRaise sid s
  | .idleWake sid => Sys2Proof.Machine.execIdleWake sid s
  | .pageResidentResume sid => Sys2Proof.Machine.execPageResidentResume sid s
  | .preemptTimeout sid => Sys2Proof.Machine.execPreemptTimeout sid s
  | .leaseExpiry sid page => Sys2Proof.Machine.execLeaseExpiry sid page s
  | .migrationRoundEnd pasid page => Sys2Proof.Machine.execMigrationRoundEnd pasid page s
  | .migrationFreezeEnd pasid page => Sys2Proof.Machine.execMigrationFreezeEnd pasid page s
  | .write t => Sys2Proof.Machine.execWrite t s
  | .writeS t => Sys2Proof.Machine.execWriteS t s
  | .atomic t => Sys2Proof.Machine.execAtomic t s
  | .faddC t => Sys2Proof.Machine.execFaddC t s
  | .bank t => Sys2Proof.Machine.execBank t s
  | .req t => Sys2Proof.Machine.execReq t s
  | .collIn t => Sys2Proof.Machine.execCollIn t s
  | .collOut t => Sys2Proof.Machine.execCollOut t s
  | .pline t => Sys2Proof.Machine.execPline t s
  | .pcommit t => Sys2Proof.Machine.execPcommit t s
  | .pabort t => Sys2Proof.Machine.execPabort t s
  | .mark link t => Sys2Proof.Machine.execMark link t s
  | .done t => Sys2Proof.Machine.execDone t s
  | .reply t => Sys2Proof.Machine.execReply t s
  | .markAck link t => Sys2Proof.Machine.execMarkAck link t s
  | .answerTimeout tag => Sys2Proof.Machine.execAnswerTimeout tag s
  | .parcelArmTimeout slot => Sys2Proof.Machine.execParcelArmTimeout slot s
  | .dataFlit port flit => Sys2Proof.Machine.execDataFlit port flit s
  | .idleFlit port flit => Sys2Proof.Machine.execIdleFlit port flit s
  | .nak port flit => Sys2Proof.Machine.execNak port flit s
  | .replayTimeout port => Sys2Proof.Machine.execReplayTimeout port s
  | .marker port flit => Sys2Proof.Machine.execMarker port flit s
  | .markerAck port flit => Sys2Proof.Machine.execMarkerAck port flit s
  | .width port flit => Sys2Proof.Machine.execWidth port flit s
  | .lossOfLight port dark => Sys2Proof.Machine.execLossOfLight port dark s
  | .laserFail laser => Sys2Proof.Machine.execLaserFail laser s
  | .wavelengthRestored port w => Sys2Proof.Machine.execWavelengthRestored port w s
  | .portGoDark port => Sys2Proof.Machine.execPortGoDark port s
  | .portRelock port => Sys2Proof.Machine.execPortRelock port s
  | .portWavelengthDisable port dis => Sys2Proof.Machine.execPortWavelengthDisable port dis s
  | .laserEnableWrite laser en => Sys2Proof.Machine.execLaserEnableWrite laser en s
  | .darkingComplete port => Sys2Proof.Machine.execDarkingComplete port s
  | .relockComplete port partner pkind => Sys2Proof.Machine.execRelockComplete port partner pkind s
  | .relockTimeout port => Sys2Proof.Machine.execRelockTimeout port s
  | .ualinkTraining port lanes partner pkind => Sys2Proof.Machine.execUalinkTraining port lanes partner pkind s
  | .vtrimTick cluster slack => Sys2Proof.Machine.execVtrimTick cluster slack s
  | .clockWindowEnd cluster mstall istall => Sys2Proof.Machine.execClockWindowEnd cluster mstall istall s
  | .clockVupEnd cluster cap => Sys2Proof.Machine.execClockVupEnd cluster cap s
  | .clockFswEnd cluster => Sys2Proof.Machine.execClockFswEnd cluster s
  | .clockVdownEnd cluster => Sys2Proof.Machine.execClockVdownEnd cluster s
  | .clkLimitWrite part cluster v => Sys2Proof.Machine.execClkLimitWrite part cluster v s
  | .hbmTempSample stack sample => Sys2Proof.Machine.execHbmTempSample stack sample s
  | .shareWindowEnd avail => Sys2Proof.Machine.execShareWindowEnd avail s
  | .bwShareWrite part v => Sys2Proof.Machine.execBwShareWrite part v s
  | .promotionSwap stack frameA frameB dieA dieB => Sys2Proof.Machine.execPromotionSwap stack frameA frameB dieA dieB s
  | .swapComplete e => Sys2Proof.Machine.execSwapComplete e s
  | .chuckCtxWrite v => Sys2Proof.Machine.execChuckCtxWrite v s
  | .reqCapWrite area v => Sys2Proof.Machine.execReqCapWrite area v s
  | .queueTailDoorbell queue tail => Sys2Proof.Machine.execQueueTailDoorbell queue tail s
  | .launchPacket queue p => Sys2Proof.Machine.execLaunchPacket queue p s
  | .copyPacket queue p => Sys2Proof.Machine.execCopyPacket queue p s
  | .signalPacket queue p => Sys2Proof.Machine.execSignalPacket queue p s
  | .waitPacket queue p => Sys2Proof.Machine.execWaitPacket queue p s
  | .waitNodeSatisfied node => Sys2Proof.Machine.execWaitNodeSatisfied node s
  | .refinePacket queue p => Sys2Proof.Machine.execRefinePacket queue p s
  | .cubePacket queue p => Sys2Proof.Machine.execCubePacket queue p s
  | .mgmtCsrw queue p => Sys2Proof.Machine.execMgmtCsrw queue p s
  | .mgmtPreempt queue p => Sys2Proof.Machine.execMgmtPreempt queue p s
  | .mgmtNfree queue p => Sys2Proof.Machine.execMgmtNfree queue p s
  | .mgmtInval queue p => Sys2Proof.Machine.execMgmtInval queue p s
  | .mgmtMigrate queue p => Sys2Proof.Machine.execMgmtMigrate queue p s
  | .mgmtScrub queue p => Sys2Proof.Machine.execMgmtScrub queue p s
  | .scrubComplete frame => Sys2Proof.Machine.execScrubComplete frame s
  | .mgmtRevoke queue p => Sys2Proof.Machine.execMgmtRevoke queue p s
  | .mgmtRoute queue p => Sys2Proof.Machine.execMgmtRoute queue p s
  | .mgmtPcreate queue p => Sys2Proof.Machine.execMgmtPcreate queue p s
  | .mgmtPassign queue p => Sys2Proof.Machine.execMgmtPassign queue p s
  | .mgmtPteardown queue p => Sys2Proof.Machine.execMgmtPteardown queue p s
  | .partitionTeardownComplete part => Sys2Proof.Machine.execPartitionTeardownComplete part s
  | .mgmtQcreate queue p => Sys2Proof.Machine.execMgmtQcreate queue p s
  | .mgmtQdestroy queue p => Sys2Proof.Machine.execMgmtQdestroy queue p s
  | .mgmtVfmap queue p => Sys2Proof.Machine.execMgmtVfmap queue p s
  | .mgmtPasiddown queue p => Sys2Proof.Machine.execMgmtPasiddown queue p s
  | .pasiddownComplete pasid => Sys2Proof.Machine.execPasiddownComplete pasid s
  | .mgmtEvq queue p => Sys2Proof.Machine.execMgmtEvq queue p s
  | .mgmtPstage queue p => Sys2Proof.Machine.execMgmtPstage queue p s
  | .patchHandover => Sys2Proof.Machine.execPatchHandover s
  | .mgmtAttest queue p => Sys2Proof.Machine.execMgmtAttest queue p s
  | .atsCompletion queue p => Sys2Proof.Machine.execAtsCompletion queue p s
  | .priTimeout queue => Sys2Proof.Machine.execPriTimeout queue s
  | .deviceReset pfail spared rails => Sys2Proof.Machine.execDeviceReset pfail spared rails s
  | .priPageResponse queue granted => Sys2Proof.Machine.execPriPageResponse queue granted s
  | .hostWrite pa bytes => Sys2Proof.Machine.execHostWrite pa bytes s
  | .ualinkReadRequest port tag => Sys2Proof.Machine.execUalinkReadRequest port tag s
  | .reservedOpTransaction t => Sys2Proof.Machine.execReservedOpTransaction t s
  | .flitCrcFailure port flit => Sys2Proof.Machine.execFlitCrcFailure port flit s
  | .ualinkPortDown port => Sys2Proof.Machine.execUalinkPortDown port s
  | .reservedPacketType queue p => Sys2Proof.Machine.execReservedPacketType queue p s
  | .accessPerformed sid acc => Sys2Proof.Machine.execAccessPerformed sid acc s
  | .fabricWritePageInResume idx => Sys2Proof.Machine.execFabricWritePageInResume idx s
  | .saveWritePageInResume sid => Sys2Proof.Machine.execSaveWritePageInResume sid s
  | .mgmtCompletionPageInResume queue => Sys2Proof.Machine.execMgmtCompletionPageInResume queue s
  | .attestReportSigned => Sys2Proof.Machine.execAttestReportSigned s

end Sys2Proof.Machine
end

