-- ==== Sys2Proof/Machine/Run.lean ====
section
/-! DEFINITION. Running: fetch and decode of a bundle, its issue and what follows it, the choice of the strand that issues, and the
device's own events in the order this model takes them (spec R33, R81, R83, R101, R103, R115, R124, R130, R136; log entries 2, 3, 20,
27). -/

namespace Sys2Proof.Machine

/-! ### Fetch and decode -/

/-- The three words of a packet (spec R81). -/
def pktWords (p : BitVec 96) : List W32 := [BitVec.ofNat 32 (bfld p 0 32), BitVec.ofNat 32 (bfld p 32 32), BitVec.ofNat 32 (bfld p 64 32)]

/-- The VA of the packet a strand stands at (spec R21, R81). -/
def Strand.pktVa (t : Strand) : W64 := (if t.cseg = 0 then t.fr.code else t.fr.handler) + 12 * t.pc.setWidth 64

/-- The packet as it was when the strand last began to fetch afresh, through the page tables as they were then; none where no page was mapped
there or a line fails its check (spec R103; log entry 27). -/
def Strand.oldPacket (t : Strand) (m : Mem) : Option Nat :=
  let old : Mem := { m with cells := t.fetched }
  let segs : Option (List Seg) := (pieces t.pktVa.toNat 12).mapM fun x => match old.walk t.id.pasid.toNat x.2.1 .fetch with
    | .ok d => some { off := x.1, pa := d.pa, len := x.2.2 }
    | .error _ => none
  segs.bind fun l => if (old.badSeg l).isSome then none else some (old.gather l)

/-- The packet at hand, whole: as memory holds it, or as it was when the strand last began to fetch afresh (spec R81, R103, R185, R190,
R193, R281; log entry 27). -/
def Op.fetch : Op (BitVec 96) := do
  let t ← Op.look id
  match t.pkt with
  | some p => pure p
  | none => do
    let (segs, _) ← Op.transl t.pktVa 12 .fetch 3
    let m ← Op.see fun s => s.mem
    match m.badVa segs with
    | some l => Op.raise { cls := 0x09, code := 0, va := BitVec.ofNat 64 l }
    | none => do
      let now := m.gather segs
      let old := (t.oldPacket m).getD now
      if now = old then pure (BitVec.ofNat 96 now)
      else do
        let n ← Op.see fun s => s.free
        Op.change fun s => { s with free := s.free + 1 }
        pure (BitVec.ofNat 96 (if Config.freeBool n 2 then now else old))

/-- What decode knows of the issuing strand (spec R101). -/
def State.decCtx (s : State) (t : Strand) : DecCtx :=
  { cic := t.place.cic, csrRead := csrNamed, csrWrite := s.csrMayWrite t.id.part }

/-- The trap of a decode check (spec R101, R124, R125). -/
def decInfo (d : DecTrap) : TrapInfo :=
  let t : TrapInfo := match d.err with
    | .illegalBundle f => { cls := 0x01, code := 0, flo := f.1, fw := f.2 }
    | .illegalOpcode f => { cls := 0x02, code := 0, flo := f.1, fw := f.2 }
    | .illegalPipe f => { cls := 0x03, code := 0, flo := f.1, fw := f.2 }
    | .illegalField f => { cls := 0x04, code := 0, flo := f.1, fw := f.2 }
  { t with wi := d.wi, word := d.word }

/-- Where a bundle stands, with the position after it in sequence: `next` 3 is the next packet (spec R125). -/
def Strand.posAt (t : Strand) (next : Nat) : Pos :=
  if next < 3 then { bpc := t.pc, bwi := t.wi, npc := t.pc, nwi := next }
  else { bpc := t.pc, bwi := t.wi, npc := t.pc + 1, nwi := 0 }

/-- The instruction is `ENTER`. -/
def isEnter : Instr → Bool
  | .enter _ => true
  | _ => false

/-- The instruction is `PHINT`. -/
def isPhint : Instr → Bool
  | .phint _ => true
  | _ => false

/-! ### A bundle -/

/-- How a bundle ends: all its words took effect, it stopped at a word, or a word ended the run. -/
inductive Went where
  | all (s : State)
  | stopped (x : Stop) (wi : Nat) (word : W32) (walked : List (Nat × Nat))
  | ends (o : Host.Outcome State Fault Refusal)

/-- One word of a bundle. -/
def runWord (p : Sys2Proof.Part) (i : Instr) (s : State) : Went :=
  match exec i { s with issue := { s.issue with wi := p.wi, word := p.head } } with
  | .next s1 =>
    match s1.issue.abort with
    | some x => .stopped x p.wi p.head s1.issue.walked
    | none => .all s1
  | .fault f => .ends (.fault f)
  | .refused f => .ends (.refused f)

/-- One word, once the accesses of the bundle's earlier words have performed where it asks for that; the bundle waits where they cannot
(spec R83, R118, R353). -/
def runAfterOwn (p : Sys2Proof.Part) (i : Instr) (s : State) : Went :=
  match runWord p i s with
  | .stopped .own _ _ _ =>
    match runWord p i s.performOwn with
    | .stopped .own wi word l => .stopped .stall wi word l
    | w => w
  | w => w

/-- The words of a bundle in order (spec R83, R105). -/
def runWords : List (Sys2Proof.Part × Instr) → State → Went
  | [], s => .all s
  | (p, i) :: r, s =>
    match runAfterOwn p i s with
    | .all s1 => runWords r s1
    | .stopped x wi word l => .stopped x wi word l
    | .ends o => .ends o

/-- The step of a `LOOPN` iteration is due at this bundle (spec R115). -/
def Strand.iterates (t : Strand) : Bool := t.loop.act && t.loop.pend && t.pc = t.loop.first && t.wi = 0

/-- The issue begins: the iteration step where one is due, and the strand as the words read it (spec R83, R115). -/
def Op.begin : Op Unit := do
  let t ← Op.look id
  if t.iterates then Op.iterate else Op.onMe fun u => { u with loop := { u.loop with pend := false } }
  Op.change fun s => { s with issue := { s.issue with snap := some s.me } }

/-- The flow of control after a bundle: its transfer, the next word, the end of an iteration, the next packet (spec R81, R83, R115). -/
def Strand.flow (t : Strand) (i : Issue) (next : Nat) : Strand :=
  match i.tgt with
  | some p => { t with pc := p, wi := i.twi, pkt := none }
  | none =>
    if next < 3 then { t with wi := next }
    else if t.loop.act && t.pc = t.loop.last then
      if lastIdx t.loop.desc 0 t.loop.idx then { t with loop := t.loop.ended, pc := t.pc + 1, wi := 0, pkt := none }
      else { t with loop := { t.loop with pend := true }, pc := t.loop.first, wi := 0, pkt := none }
    else { t with pc := t.pc + 1, wi := 0, pkt := none }

/-- An issue returns the priority to its base and the aging count to 0 (spec R33). -/
def Strand.issued (t : Strand) (cycle : Nat) : Strand :=
  { t with id := { t.id with eprio := t.id.bprio, aged := false }, sch := { t.sch with age := 0, passed := false, last := cycle } }

/-- A queued access of a strand is a read of a line that fails its check: the strand stops at the boundary after the bundle that entered it
(spec R124; log entry 89). -/
def Strand.readsBad (t : Strand) (m : Mem) : Bool :=
  t.q.accs.any fun a => match a.act with
    | .load segs _ _ => (m.badSeg segs).isSome
    | .atom _ _ g _ _ => (m.badSeg [g]).isSome
    | .bank _ _ _ g _ _ _ => a.dst.isSome && (m.badSeg [g]).isSome
    | .sload off n _ _ => (t.spadBad off n).isSome
    | .store _ _ _ | .sstore _ _ _ | .ratom _ _ _ _ _ | .rbank _ _ _ _ _ _ _ | .mark | .spalloc _ _ | .spfree _ _
    | .hold _ _ _ | .cmd | .trig | .exit => false

/-- A strand may be chosen to issue: it runs, and nothing it waits for stands open (spec R29, R33, R124, R210, R329). -/
def State.mayIssue (s : State) (t : Strand) : Bool :=
  t.runs && t.q.waitf.isNone && !t.sch.saving && !(t.readsBad s.mem)
    && !(t.q.accs.any fun a => match a.act with
        | .exit => true
        | _ => false)
    && (match t.sch.gate with
        | some g => s.gateOpen g.1 (some g.2)
        | none => true)
    && (t.place.cic || !(s.switching t.place.cluster.toNat))

/-- A core cycle passes: V words land, and no strand of the core counts as ready in it until it is found so (spec R33, R53). -/
def State.tick (s : State) (k : Nat) : State :=
  let c := SMap.get {} s.cores k
  let s1 := { s with cores := SMap.set {} s.cores k { c with cycle := c.cycle + 1 } }
  { s1 with strands := s1.strands.map fun (e : Nat × Strand) =>
      if e.2.place.key = k && e.2.place.resident then
        (e.1, { e.2 with vpend := e.2.vpend.filter fun v => decide (c.cycle + 1 < v.due), sch := { e.2.sch with passed := false } })
      else e }

/-- What follows a bundle whose words took effect: the flow, the cycle, a pre-emption at `PHINT`, and a stop that a word asked for
(spec R33, R56, R136, R141). -/
def State.afterBundle (s : State) (is : List (Sys2Proof.Part × Instr)) (next : Nat) : State :=
  let k := s.core
  let s1 := s.setMe ((s.me.flow s.issue next).issued (s.cycle k))
  let s2 := s1.tick k
  let s3 :=
    if s2.me.sch.preempt && s2.me.sch.stop.isNone && is.any (fun e => isPhint e.2) then
      s2.onStrand s.cur fun t => { t with sch := { t.sch with stop := some (.suspend 8 false) } }
    else s2
  { s3.settle s.cur with issue := {} }

/-- What a stop of the bundle does to the machine as it stood before it; a trap or fault counts as an issue (spec R33, R127, R130). -/
def State.afterStop (s : State) (x : Stop) (pos : Pos) (wi : Nat) (word : W32) : State :=
  let s1 := { s with issue := { pos := pos, wi := wi, word := word } }
  let s2 := match x with
    | .trap _ | .pageIn _ _ => (s1.setMe (s1.me.issued (s1.cycle s1.core))).tick s1.core
    | .stall | .wait _ _ _ _ | .waitf _ | .poolFull _ | .own => s1
  { s2.applyStop x with issue := {} }

/-- The bundle is a stall: the strand is not ready after all (spec R33). -/
def Stop.isStall : Stop → Bool
  | .stall | .own => true
  | .trap _ | .pageIn _ _ | .wait _ _ _ _ | .waitf _ | .poolFull _ => false

/-- The outcome of a try to issue: none where the bundle stalls. -/
abbrev Try : Type := Option (Host.Outcome State Fault Refusal)

/-- A stop of the bundle as the outcome of the try: the bits that its walks set stay (spec R184). -/
def State.stopped (s : State) (x : Stop) (pos : Pos) (wi : Nat) (word : W32) (walked : List (Nat × Nat)) : Try :=
  if x.isStall then none else some (.next ((s.setBits walked).afterStop x pos wi word))

/-- The bundle of the strand at hand, decoded: its words run from the state after the fetch (spec R40, R43, R83, R101, R130). -/
def State.runBundle (s : State) (p : BitVec 96) (is : List (Sys2Proof.Part × Instr)) (next : Nat) : Try :=
  let t := s.me
  let pos := t.posAt next
  if t.win.ep && !(is.any fun e => isEnter e.2) then
    s.stopped (.trap { windowTrap 0x01 0 0 with wi := t.wi, word := (pktWords p).getD t.wi 0 }) pos 0xFF 0 []
  else
    let s2 := ({ s with issue := { pos := pos, wi := t.wi, word := (pktWords p).getD t.wi 0 } } : State).setMe { t with pkt := some p }
    match Op.begin s2 with
    | .error h => s.stopped h.why pos s2.issue.wi s2.issue.word h.walked
    | .ok (_, s3) =>
      match runWords is s3 with
      | .all s4 => some (.next (s4.afterBundle is next))
      | .stopped x wi word l => s.stopped x pos wi word l
      | .ends o => some o

/-- Strand `sid` tries to issue its next bundle (spec R33, R81, R101); in a partition that is torn down it suspends instead (spec R339). A trap on the fetch names the position at hand as the bundle's and as
the next one: no word of it is known (log entry 44). -/
def State.tryIssue (s : State) (sid : Nat) : Try :=
  let s0 := { s with cur := sid, issue := { wi := 0xFF } }
  let t := s0.me
  if t.sch.forced || (s0.part t.id.part).st = 2 then
    some (.next ((s0.setMe { t with sch := { t.sch with preempt := true } }).stopStrand sid (.suspend 8 true)))
  else
    match Op.fetch s0 with
    | .error h => s0.stopped h.why { bpc := t.pc, bwi := t.wi, npc := t.pc, nwi := t.wi } 0xFF 0 h.walked
    | .ok (p, s1) =>
      let d := decodeBundle (s.decCtx t) (pktWords p) t.wi
      match d.1 with
      | .error e => s1.stopped (.trap (decInfo e)) (t.posAt d.2) 0xFF 0 []
      | .ok is => s1.runBundle p is d.2

/-! ### Which strand issues -/

/-- A strand goes before another: higher effective priority, then longer without an issue, then the lower slot (spec R33). -/
def Strand.before (a b : Strand) : Bool :=
  decide (b.id.eprio.toNat < a.id.eprio.toNat)
    || (a.id.eprio = b.id.eprio && (decide (a.sch.last < b.sch.last)
        || (a.sch.last = b.sch.last && decide (a.place.slot.toNat < b.place.slot.toNat))))

/-- A strand put into its place. -/
def insertStrand (e : Nat × Strand) : List (Nat × Strand) → List (Nat × Strand)
  | [] => [e]
  | x :: r => if e.2.before x.2 then e :: x :: r else x :: insertStrand e r

/-- A core number put into its place, once. -/
def insertKey (k : Nat) : List Nat → List Nat
  | [] => [k]
  | x :: r => if k < x then k :: x :: r else if k = x then x :: r else x :: insertKey k r

/-- The strands that may issue, core by core from the core whose turn it is (spec R33; log entry 20). -/
def State.issueOrder (s : State) : List Nat :=
  let able := s.strands.filter fun e => s.mayIssue e.2
  let keys := able.foldl (fun (l : List Nat) (e : Nat × Strand) => insertKey e.2.place.key l) []
  let turn := s.turn / 2 % 257
  ((keys.filter fun k => decide (turn ≤ k)) ++ keys.filter fun k => decide (k < turn)).flatMap fun k =>
    ((able.filter fun e => e.2.place.key = k).foldl (fun (l : List (Nat × Strand)) e => insertStrand e l) []).map Prod.fst

/-- The first core on which every strand stalls while a V word is in flight: a cycle passes there (spec R53). -/
def State.waitCycle (s : State) : Option State :=
  (s.issueOrder.find? fun i => match s.strand? i with
    | some t => !(t.landed (s.cycle t.place.key))
    | none => false).bind fun i => (s.strand? i).map fun t => s.tick t.place.key

/-- Strands that were ready and did not issue age by a cycle (spec R33). -/
def State.age (s : State) (sids : List Nat) : State :=
  { s with strands := s.strands.map fun (e : Nat × Strand) =>
      if sids.contains e.1 && e.2.place.resident then (e.1, { e.2 with sch := { e.2.sch with passed := true } }.ageTo (e.2.sch.age + 1)) else e }

/-- The core that a strand holds a slot of. -/
def State.coreOf (s : State) (sid : Nat) : Nat := ((s.strand? sid).getD {}).place.key

/-- The strands after the one that issues, on its core, whose bundle has no interlock: those before it in the order all stalled (spec R33). -/
def State.passedOver (s : State) (sid : Nat) (rest : List Nat) : List Nat :=
  rest.filter fun j => s.coreOf j = s.coreOf sid && (s.tryIssue j).isSome

/-- The first strand of a list whose bundle has no interlock issues; the ready ones it passes over age where its core's cycle passes
(spec R33). -/
def State.issueFirst (s : State) : List Nat → Try
  | [] => none
  | i :: r =>
    match s.tryIssue i with
    | none => s.issueFirst r
    | some (.next t) => some (.next (if t.cycle (s.coreOf i) = s.cycle (s.coreOf i) then t else t.age (s.passedOver i r)))
    | some o => some o

/-- A bundle issues on the first core that can issue one. -/
def State.issueStep (s : State) : Try :=
  match s.issueFirst s.issueOrder with
  | some o => some o
  | none => s.waitCycle.map fun t => .next t

/-! ### The device's own events -/

/-- An event of the device, as the step it makes. -/
abbrev Ev : Type := State → Host.Outcome State Fault Refusal

/-- The event of a transaction this device sent to itself. -/
def loopEvent (t : Txn) : Ev :=
  if t.reserved then execReservedOpTransaction t
  else if t.op = 1 then execWrite t
  else if t.op = 2 then execWriteS t
  else if t.op = 3 then execAtomic t
  else if t.op = 4 then execFaddC t
  else if t.op = 5 then execBank t
  else if t.op = 6 then execReq t
  else if t.op = 7 then execCollIn t
  else if t.op = 8 then execCollOut t
  else if t.op = 9 then execPline t
  else if t.op = 10 then execPcommit t
  else if t.op = 11 then execPabort t
  else if t.op = 12 then execMark 24 t
  else if t.op = 16 then execDone t
  else if t.op = 17 then execReply t
  else execMarkAck 24 t

/-- The packet events that are due: the queue served next and those whose packet waits, with their rings in device memory (spec R340). -/
def State.dueP (s : State) : List Ev :=
  let waiting := (s.host.queues.filter fun e => e.2.waits).map Prod.fst
  ((s.nextQueue.toList ++ waiting).filter fun i => !((s.queue i).inHost)).map fun i =>
    match s.ringPkt i with
    | .ok (p, _) => packetAny i p
    | .error _ => packetAny i (pktOf 1)

/-- Accesses that may perform now. -/
def State.dueA (s : State) : List Ev :=
  s.strands.flatMap fun (e : Nat × Strand) => e.2.q.accs.map fun a => execAccessPerformed e.1 a.id

/-- What strands wait for. -/
def State.dueS (s : State) : List Ev :=
  s.strands.flatMap fun (e : Nat × Strand) =>
    [execWaitfComplete e.1, execWaitTargetSatisfied e.1, execPageResidentResume e.1, execStrandSlotFree e.1]

/-- Engine work. -/
def State.dueE (s : State) : List Ev :=
  (s.fab.loop.map loopEvent)
    ++ (s.copies.map fun c => execCopyCommandComplete c.ctx c.seq)
    ++ ((List.range 8).flatMap fun x => [execCubeCommandComplete x, execCubeStop x false])
    ++ (s.rlcs.flatMap fun (e : Nat × Rlc) => [execRlcBlockStart e.1, execRlcStageEnd e.1, execRlcBlockExit e.1])

/-- Chuck's and Mandrel's work. -/
def State.dueC (s : State) : List Ev :=
  [execContextEntryGrant, execGangPlacement] ++ (s.chuck.nodes.map fun (e : Nat × Node) => execWaitNodeSatisfied e.1) ++ s.dueP

/-- Work of the memory system, the firmware and the clocks. -/
def State.dueM (s : State) : List Ev :=
  (s.mem.migs.flatMap fun g => [execMigrationRoundEnd g.pasid g.va, execMigrationFreezeEnd g.pasid g.va])
    ++ (s.mem.scrubs.map fun e => execScrubComplete e.1)
    ++ (s.power.hbm.filterMap fun e => if e.2.swap.isSome then some (execSwapComplete ⟨e.1, []⟩) else none)
    ++ (s.power.clks.flatMap fun e => [execClockFswEnd e.1, execClockVdownEnd e.1])
    ++ (s.parts.map fun e => execPartitionTeardownComplete e.1)
    ++ (s.host.downs.map fun e => execPasiddownComplete e.1) ++ [execPatchHandover]

/-- Times that pass when nothing else happens (spec R32, R136, R145). -/
def State.dueT (s : State) : List Ev :=
  s.strands.flatMap fun (e : Nat × Strand) =>
    (if e.2.id.state = 2 then [execWaitSpinExpiry e.1] else [])
      ++ (if e.2.sch.idle then [execIdleWake e.1] else []) ++ (if e.2.sch.preempt then [execPreemptTimeout e.1] else [])

/-- What waits for a page: the event that lets it go on, with those that then run it. -/
def State.dueR (s : State) : List (List Ev) :=
  ((List.range s.words.length).map fun i => [execFabricWritePageInResume i])
    ++ (s.strands.filterMap fun (e : Nat × Strand) => if e.2.sch.saving then some [execSaveWritePageInResume e.1] else none)
    ++ (s.host.queues.filterMap fun (e : Nat × Queue) => if e.2.comps ≠ [] then some [execMgmtCompletionPageInResume e.1] else none)
    ++ (s.copies.filterMap fun c => if c.stalled then some [execCopyPageInResume c.ctx, execCopyCommandComplete c.ctx c.seq] else none)
    ++ (s.fab.cmds.filterMap fun c => if c.stalled then some [execCopyPageInResume c.ctx] else none)
    ++ (s.cube.cmds.filterMap fun c =>
      if c.st = 3 then some [execCubeWaitingRestart c.ctx, execCubeCommandComplete c.ctx, execCubeStop c.ctx false] else none)
    ++ (if s.chuck.starting ≠ [] then [[execCubeWaitingRestart 0]] else [])
    ++ (if s.host.attests ≠ [] then [[execAttestReportSigned]] else [])

/-- Free values drawn without an effect do not count as one. -/
def State.same (s t : State) : Bool := { t with free := s.free } = s

/-- The event has an effect now. -/
def State.acts (s : State) (e : Ev) : Bool :=
  match e s with
  | .next t => !(s.same t)
  | .fault _ | .refused _ => true

/-- Events one after the other; none where one ends the run. -/
def runEvents : List Ev → State → Option State
  | [], s => some s
  | e :: r, s =>
    match e s with
    | .next t => runEvents r t
    | .fault _ | .refused _ => none

/-- What waited for a page goes on without a page fault: no event reaches the host. -/
def State.goesOn (s : State) (l : List Ev) : Bool :=
  match runEvents l s with
  | some t => !(s.same t) && t.host.out.length = s.host.out.length && t.host.pend.length = s.host.pend.length
  | none => false

/-- The first event of the device's own that has an effect now. -/
def State.autoEvent (s : State) : Option Ev :=
  match (s.dueA ++ s.dueS ++ s.dueE ++ s.dueC ++ s.dueM).find? fun e => s.acts e with
  | some e => some e
  | none => (s.dueR.find? fun l => s.goesOn l).bind List.head?

/-- The device's own events. -/
def State.eventStep (s : State) : Try := s.autoEvent.map fun e => e s

/-- Time that passes where nothing else can happen. -/
def State.timeStep (s : State) : Try := (s.dueT.find? fun e => s.acts e).map fun e => e s

/-! ### What the outside does -/

/-- A row of the table that is an event and no instruction of a strand: it has no words. -/
def isEvent (i : Instr) : Bool := encode i = .none

/-- A step with what its walkers lost reported (spec R193). -/
def reported (o : Host.Outcome State Fault Refusal) : Host.Outcome State Fault Refusal :=
  match o with
  | .next t => .next t.flushLost
  | .fault f => .fault f
  | .refused r => .refused r

/-- An input or event is taken from the list of those to come (log entry 2). -/
def State.agendaStep (s : State) (i : Instr) (r : List Instr) : Host.Outcome State Fault Refusal :=
  if isEvent i then reported (exec i { s with agenda := r }) else .next { s with agenda := r }

/-- A step with nothing to come from outside: a bundle or an event of the device, each first in its turn, else time passes (log
entry 2). -/
def State.ownStep (s : State) : Host.Outcome State Fault Refusal :=
  let t := { s with turn := s.turn + 1 }
  let o := if s.turn % 2 = 0 then t.issueStep.or t.eventStep else t.eventStep.or t.issueStep
  reported ((o.or t.timeStep).getD (.next t))

/-! ### A program placed where the next step fetches (log entry 1) -/

/-- The packet of a table row: its word or two, the rest `NOP`. -/
def tablePacket (nbits w : Nat) : BitVec 96 :=
  let (h, t) := tableWords nbits w
  if isLong (bfld h 28 3) (headOp h) then 0x6F000000#32 ++ t ++ h else 0x6F000000#32 ++ 0x6F000000#32 ++ h

/-- The strand that runs a placed packet: packet 0 of the code at VA 0, its handler at VA 256; past its `ENTER` unless it is about to execute one. -/
def placedStrand (h : W32) (cells : List Host.Cell) : Strand :=
  let cube := bfld h 28 3 = 5
  let t := newStrand { state := 1, cls := cube } { wsize := 64, fsize := 64, spad := 1, handler := 256 } 0 0 0
  { t with
    id := { t.id with state := 1 }, place := { cic := cube, resident := true }
    win := { t.win with ep := bfld h 24 7 = 0x66 }, fetched := cells }

/-- The bytes of a packet placed at VA 0 of PASID 0: frames 1 to 3 hold the tables that map it to frame 4. -/
def placeBytes (m : Mem) (p : BitVec 96) : Mem :=
  let home := m.devid.toNat * 2 ^ 53
  let m1 := { m with bad := [], migs := [], locked := [], moved := [], lost := [], tlb := [], roots := SMap.set 0 m.roots 0 (BitVec.ofNat 64 (home + 65536 + 129)) }
  let m2 := (m1.writeN 65536 8 (home + 2 * 65536 + 129)).1
  let m3 := (m2.writeN 131072 8 (home + 3 * 65536 + 129)).1
  let m4 := (m3.writeN 196608 8 (home + 4 * 65536 + 191)).1
  (m4.writeN 262144 12 p.toNat).1

/-- A packet placed, and a strand resident on a core that issues it next. -/
def State.placed (s : State) (p : BitVec 96) : State :=
  let m := placeBytes s.mem p
  { s with agenda := [], turn := 0, mem := m, slots := [], strands := [(0, placedStrand (BitVec.ofNat 32 p.toNat) m.cells)] }

end Sys2Proof.Machine
end

