-- ==== Sys2Proof/Machine/Step.lean ====
section
/-! DEFINITION. Step: one step of the machine, and the state in which the next step fetches a given instruction. -/

namespace Sys2Proof.Machine

/-- One step: the next input that is listed, else a bundle or an event of the device (log entries 2, 3). -/
def step (s : State) : Host.Outcome State Fault Refusal :=
  match s.agenda with
  | i :: r => s.agendaStep i r
  | [] => s.ownStep

/-- The state with an instruction of the opcode table where the next step fetches (log entry 1). -/
def State.withFetchWord (s : State) (nbits w : Nat) : State := s.placed (tablePacket nbits w)

end Sys2Proof.Machine
end

