-- ==== Sys2Proof/Safety.lean ====
section
/-! DEFINITION. The terms in which Certificates/Slice0/Obligations.lean speaks of a step: which pieces of the state it may change,
what a place of register space holds, and what a run may end in. -/

namespace Sys2Proof.Machine

/-! ### Runs -/

/-- The outcome is a next state. -/
def IsNext (o : Host.Outcome State Fault Refusal) : Prop := ∃ t, o = .next t

/-- The invariant of memory: its cells stand in the canonical form. -/
def State.MemOk (s : State) : Prop := s.mem.wf = true

/-! ### Pieces of the state -/

/-- The pieces of `State`. -/
inductive StatePart where
  | agenda | cur | turn | issue | free | strands | nextSid | cores | chuck | parts | mem | ctxs | nests | copies | fab | links
  | slots | words | cube | rlcs | power | host
  deriving DecidableEq, Repr

/-- A piece is the same in both states; memory also byte by byte. -/
def StatePart.Same (s t : State) : StatePart → Prop
  | .agenda => t.agenda = s.agenda
  | .cur => t.cur = s.cur
  | .turn => t.turn = s.turn
  | .issue => t.issue = s.issue
  | .free => t.free = s.free
  | .strands => t.strands = s.strands
  | .nextSid => t.nextSid = s.nextSid
  | .cores => t.cores = s.cores
  | .chuck => t.chuck = s.chuck
  | .parts => t.parts = s.parts
  | .mem => t.mem = s.mem ∧ ∀ a, t.mem.byte a = s.mem.byte a
  | .ctxs => t.ctxs = s.ctxs
  | .nests => t.nests = s.nests
  | .copies => t.copies = s.copies
  | .fab => t.fab = s.fab
  | .links => t.links = s.links
  | .slots => t.slots = s.slots
  | .words => t.words = s.words
  | .cube => t.cube = s.cube
  | .rlcs => t.rlcs = s.rlcs
  | .power => t.power = s.power
  | .host => t.host = s.host

/-- Only the pieces listed may differ. -/
def Changes (l : List StatePart) (s t : State) : Prop := ∀ p, p ∉ l → p.Same s t

/-- The pieces of `Strand`. -/
inductive StrandPart where
  | id | place | fr | pc | wi | cseg | win | regs | views | rot | files | fp | vpend | loop | trap | scr | scrBad | q | sch | shNest | shA
  | shB | bind | pkt | fetched
  deriving DecidableEq, Repr

/-- A piece of a strand is the same in both. -/
def StrandPart.Same (a b : Strand) : StrandPart → Prop
  | .id => b.id = a.id
  | .place => b.place = a.place
  | .fr => b.fr = a.fr
  | .pc => b.pc = a.pc
  | .wi => b.wi = a.wi
  | .cseg => b.cseg = a.cseg
  | .win => b.win = a.win
  | .regs => b.regs = a.regs
  | .views => b.views = a.views
  | .rot => b.rot = a.rot
  | .files => b.files = a.files
  | .fp => b.fp = a.fp
  | .vpend => b.vpend = a.vpend
  | .loop => b.loop = a.loop
  | .trap => b.trap = a.trap
  | .scr => b.scr = a.scr
  | .scrBad => b.scrBad = a.scrBad
  | .q => b.q = a.q
  | .sch => b.sch = a.sch
  | .shNest => b.shNest = a.shNest
  | .shA => b.shA = a.shA
  | .shB => b.shB = a.shB
  | .bind => b.bind = a.bind
  | .pkt => b.pkt = a.pkt
  | .fetched => b.fetched = a.fetched

/-- Only the listed pieces of the strand may differ. -/
def Alters (l : List StrandPart) (a b : Strand) : Prop := ∀ f, f ∉ l → f.Same a b

/-- Of the strands, only the one that issues may differ. -/
def OthersKept (s t : State) : Prop := ∀ i, i ≠ s.cur → t.strand? i = s.strand? i

/-- The frame of a word that acts on its own strand: other pieces, other strands and the cycle of every core stay, and free
values may have been drawn (log entry 10). -/
def OnSelf (l : List StatePart) (s t : State) : Prop :=
  Changes (.strands :: .cores :: .free :: l) s t ∧ OthersKept s t ∧ (∀ k, t.cycle k = s.cycle k) ∧ s.free ≤ t.free

/-! ### Register space -/

/-- Byte `o` of an allotment unit, as a read sees it. -/
def Strand.regByte (t : Strand) (u o : Nat) : Nat := bfld (t.readUnit u) (8 * o) 8

/-- An entry of the operand file. -/
def Strand.entry (t : Strand) (i : Nat) : Vec := SMap.get 0 t.files.o i

/-- Byte `k` of a number. -/
def byteOf (v k : Nat) : Nat := v / 256 ^ k % 256

/-- The place lies in the allotment of the strand. -/
def Loc.Inside (t : Strand) : Loc → Prop
  | .reg u _ _ => u < t.fr.wsize
  | .ofile _ _ => True

/-- `b` is `a` with a value at a place: the bytes of the place are the value's, an operand file entry is zero past them, and every
other byte of the allotment and every other entry reads as before. -/
def Stored (a b : Strand) (l : Loc) (v : Nat) : Prop :=
  match l with
  | .reg u p n =>
    (∀ k, k < n → p + k < 256 → b.regByte u (p + k) = byteOf v k)
      ∧ (∀ w o, w < a.fr.wsize → o < 256 → ¬(w = u ∧ p ≤ o ∧ o < p + n) → b.regByte w o = a.regByte w o)
      ∧ (∀ i, b.entry i = a.entry i)
  | .ofile i n =>
    b.entry i = BitVec.ofNat 2048 (v % 2 ^ (8 * n)) ∧ (∀ j, j ≠ i → b.entry j = a.entry j)
      ∧ ∀ w o, b.regByte w o = a.regByte w o

/-- Every byte of the allotment and every entry of the operand file reads as before. -/
def RegsKept (a b : Strand) : Prop := (∀ w o, b.regByte w o = a.regByte w o) ∧ ∀ i, b.entry i = a.entry i

/-- An access without the bytes that a later word of its bundle took over (spec R83). -/
def Access.bare (a : Access) : Access := { a with dst := a.dst.map fun d => { d with skip := 0 } }

/-- The queues, tokens and leases are the same, but for bytes taken over from an access of the same bundle (spec R83). -/
def QueuesKept (a b : Strand) : Prop :=
  b.q.accs.map Access.bare = a.q.accs.map Access.bare ∧ b.q.next = a.q.next ∧ b.q.toks = a.q.toks ∧ b.q.waitf = a.q.waitf
    ∧ b.q.leases = a.q.leases

/-- The last-result file is the same but for the entries a list names: 0 `ls`, 1 `lx`, 2 `lv`, 3 `lm` (spec R48). -/
def LastKept (l : List Nat) (a b : Strand) : Prop :=
  (0 ∉ l → b.files.ls = a.files.ls) ∧ (1 ∉ l → b.files.lx = a.files.lx ∧ b.files.lxWait = a.files.lxWait)
    ∧ (2 ∉ l → b.files.lv = a.files.lv) ∧ (3 ∉ l → b.files.lm = a.files.lm ∧ b.files.lmWait = a.files.lmWait)

/-- The rotating region is the same but for its dead units (spec R49, R50). -/
def RotKept (a b : Strand) : Prop := { b.rot with dead := a.rot.dead } = a.rot

/-- A 64-bit destination can be written now: its place, which is not pending (spec R46, R54, R104). -/
def Dst8 (s : State) (d : Spec) (lo : Nat) (l : Loc) : Prop :=
  Op.sDst d lo s = .ok (l, s) ∧ s.view.pendsAt l = false ∧ l.Inside s.me

/-- A 256-byte destination can be written now (spec R46, R54, R150). -/
def Dst256 (s : State) (d : Spec) (lo : Nat) (l : Loc) : Prop :=
  Op.vDst d lo s = .ok (l, s) ∧ s.view.pendsAt l = false ∧ l.Inside s.me

/-- What a word leaves that puts `v` into a destination place and does nothing else but set the entry `last` of the last-result
file; `ps` and `fs` list the other pieces of the state and of its strand that it may change. -/
def Delivers (ps : List StatePart) (fs : List StrandPart) (last : Nat) (s t : State) (l : Loc) (v : Nat) : Prop :=
  OnSelf ps s t ∧ Alters (.regs :: .files :: .rot :: .q :: fs) s.me t.me ∧ Stored s.me t.me l v ∧ QueuesKept s.me t.me
    ∧ LastKept [last] s.me t.me ∧ RotKept s.me t.me

/-- The effect of an S word that answers `v` (spec R104): d and `ls`. -/
def ScalarResult (s t : State) (l : Loc) (v : W64) : Prop := Delivers [] [] 0 s t l v.toNat ∧ t.me.files.ls = v

/-- A word changes nothing but free values drawn and reuse latches. -/
def AllQuiet (s t : State) : Prop := Changes [.free, .cores] s t ∧ (∀ k, t.cycle k = s.cycle k) ∧ s.free ≤ t.free

/-- A word changes its own strand only, and of it only the listed pieces. -/
def Sets (fs : List StrandPart) (s t : State) : Prop := OnSelf [] s t ∧ Alters fs s.me t.me

/-! ### Scalar values, from the tables of the spec -/

/-- A number's low 64 bits. -/
def lo64 (n : Nat) : W64 := BitVec.ofNat 64 n

/-- An integer modulo 2^64. -/
def int64 (i : Int) : W64 := BitVec.ofInt 64 i

/-- 1 or 0. -/
def one64 (p : Bool) : W64 := if p then 1 else 0

/-- x before y, as `n64` when `u` holds, else as `i64` (spec R106). -/
def before64 (u : Bool) (x y : W64) : Bool := if u then decide (x.toNat < y.toNat) else decide (x.toInt < y.toInt)

/-- The carry-less product by the loop of R107. -/
def clProduct (x y : W64) : Nat := (List.range 64).foldl (fun p i => if y.getLsbD i then p ^^^ (x.toNat <<< i) else p) 0

/-- The two-source short S forms with the result that R106 and R107 give each. -/
def scalarTwo (f : SForm) (x y : W64) : List (Instr × W64) :=
  let k := y.toNat % 64
  [ (.add f, lo64 (x.toNat + y.toNat)), (.sub f, int64 (x.toInt - y.toInt)), (.mul f, lo64 (x.toNat * y.toNat)),
    (.mulh f, if f.u then lo64 (x.toNat * y.toNat / 2 ^ 64) else int64 (x.toInt * y.toInt / 2 ^ 64)),
    (.div f, if y = 0 then BitVec.allOnes 64
      else if f.u then lo64 (x.toNat / y.toNat)
      else if x.toInt = -2 ^ 63 ∧ y.toInt = -1 then int64 (-2 ^ 63) else int64 (x.toInt.tdiv y.toInt)),
    (.rem f, if y = 0 then x
      else if f.u then lo64 (x.toNat % y.toNat)
      else if x.toInt = -2 ^ 63 ∧ y.toInt = -1 then 0 else int64 (x.toInt - y.toInt * x.toInt.tdiv y.toInt)),
    (.min f, if before64 f.u y x then y else x), (.max f, if before64 f.u x y then y else x),
    (.and f, x &&& y), (.or f, x ||| y), (.xor f, x ^^^ y), (.andn f, x &&& ~~~y), (.orn f, x ||| ~~~y),
    (.shl f, lo64 (x.toNat * 2 ^ k)), (.shr f, lo64 (x.toNat / 2 ^ k)), (.sar f, int64 (x.toInt / 2 ^ k)),
    (.rol f, lo64 (x.toNat * 2 ^ k + x.toNat / 2 ^ (64 - k))), (.ror f, lo64 (x.toNat / 2 ^ k + x.toNat * 2 ^ (64 - k))),
    (.clmul f, lo64 (clProduct x y)), (.clmulh f, lo64 (clProduct x y / 2 ^ 64)),
    (.cmpEq f, one64 (x = y)), (.cmpNe f, one64 (x ≠ y)), (.cmpLt f, one64 (before64 f.u x y)),
    (.cmpGe f, one64 (!before64 f.u x y)) ]

/-- The one-source short S forms with the result that R106 gives each. -/
def scalarOne (f : SForm) (x : W64) : List (Instr × W64) :=
  let w := 8 * 2 ^ f.b.toNat
  [ (.clz f, lo64 ((List.range 64).takeWhile fun i => !x.getLsbD (63 - i)).length),
    (.ctz f, lo64 ((List.range 64).takeWhile fun i => !x.getLsbD i).length),
    (.popc f, lo64 ((List.range 64).filter fun i => x.getLsbD i).length),
    (.brev f, lo64 ((List.range 64).foldl (fun a i => a + if x.getLsbD i then 2 ^ (63 - i) else 0) 0)),
    (.bswap f, lo64 ((List.range 8).foldl (fun a i => a + byteOf x.toNat i * 256 ^ (7 - i)) 0)),
    (.mov f, x),
    (.sext f, if x.getLsbD (w - 1) then int64 ((x.toNat % 2 ^ w : Nat) - 2 ^ w) else lo64 (x.toNat % 2 ^ w)),
    (.zext f, lo64 (x.toNat % 2 ^ w)) ]

/-- The SI-I forms with the result that R109 gives each. -/
def scalarImm (f : IForm) (x : W64) : List (Instr × W64) :=
  [ (.addi f, int64 (x.toInt + f.imm.toInt)), (.andi f, x &&& int64 f.imm.toInt), (.ori f, x ||| int64 f.imm.toInt),
    (.xori f, x ^^^ int64 f.imm.toInt), (.shli f, lo64 (x.toNat * 2 ^ (f.imm.toNat % 64))),
    (.shri f, lo64 (x.toNat / 2 ^ (f.imm.toNat % 64))) ]

/-! ### Vector values, from the tables of the spec -/

/-- What a V word leaves (spec R48, R53, R72, R154): `v` in d and in `lv`, the flags ORed in, and both in flight for the bound of `lat`;
nothing else changed. -/
def VectorResult (s t : State) (l : Loc) (lat : BitVec 2) (v : Vec) (fl : Nat) : Prop :=
  Delivers [] [.fp, .vpend] 2 s t l v.toNat ∧ t.me.files.lv = v
    ∧ t.me.fp = { s.me.fp with flags := s.me.fp.flags ||| BitVec.ofNat 6 fl }
    ∧ t.me.vpend = s.me.vpend.filter (fun e => decide (s.now < e.due))
        ++ [⟨some l, s.now + 2 ^ (lat.toNat + 1)⟩, ⟨none, s.now + 2 ^ (lat.toNat + 1)⟩]

/-- Element i of width w (spec R46, R57). -/
def el (w : Nat) (v : Vec) (i : Nat) : Nat := v.toNat / 2 ^ (w * i) % 2 ^ w

/-- A number of w bits as two's complement (spec R57). -/
def signed (w x : Nat) : Int := if 2 ^ (w - 1) ≤ x then (x : Int) - 2 ^ w else x

/-- An element as its integer type reads it (spec R57, R91): `i8` to `i64` and `i4` are signed. -/
def num (t x : Nat) : Int := if t ≤ 3 ∨ t = 8 then signed (tyW t) x else x

/-- The least value of an integer type (spec R57). -/
def least (t : Nat) : Int := if t ≤ 3 ∨ t = 8 then -2 ^ (tyW t - 1) else 0

/-- The greatest value of an integer type (spec R57). -/
def greatest (t : Nat) : Int := if t ≤ 3 ∨ t = 8 then 2 ^ (tyW t - 1) - 1 else 2 ^ tyW t - 1

/-- An integer modulo 2^w. -/
def residue (w : Nat) (x : Int) : Nat := (x % 2 ^ w).toNat

/-- A value held to the range of a type, and whether that changed it. -/
def held (t : Nat) (x : Int) : Int × Bool :=
  if x < least t then (least t, true) else if greatest t < x then (greatest t, true) else (x, false)

/-- An exact result written to a type (spec R170): held to its range where SAT is set, else modulo 2^w. -/
def written (sat : Bool) (t : Nat) (x : Int) : Nat × Bool :=
  if sat then (residue (tyW t) (held t x).1, (held t x).2) else (residue (tyW t) x, false)

/-- A lane result that nothing clips. -/
def exact (x : Nat) : Nat × Bool := (x, false)

/-- A vector result of n elements of width w, each given with whether it was clipped; SAT when one was (spec R154, R170). -/
def LaneResult (s t : State) (l : Loc) (lat : BitVec 2) (w n : Nat) (g : Nat → Nat × Bool) : Prop :=
  ∃ v, VectorResult s t l lat v (if (List.range n).any fun i => (g i).2 then 32 else 0) ∧ ∀ i, i < n → el w v i = (g i).1 % 2 ^ w

/-- The lane-by-lane VI forms of two sources, with what R170 and R172 give for a lane. -/
def vectorTwo (f : VForm) : List (Instr × (Nat → Nat → Nat × Bool)) :=
  let t := f.typ.toNat
  let w := tyW t
  let n := num t
  let holds (a b : Int) : Bool := if f.cc = 0 then a = b else if f.cc = 1 then a ≠ b else if f.cc = 2 then a < b
    else if f.cc = 3 then a ≤ b else if f.cc = 4 then b < a else b ≤ a
  [ (.vadd f, fun x y => written f.sat t (n x + n y)), (.vsub f, fun x y => written f.sat t (n x - n y)),
    (.vmul f, fun x y => written f.sat t (n x * n y)), (.vmulh f, fun x y => exact (residue w (n x * n y / 2 ^ w))),
    (.vmin f, fun x y => exact (if n y < n x then y else x)), (.vmax f, fun x y => exact (if n x < n y then y else x)),
    (.vand f, fun x y => exact (x &&& y)), (.vor f, fun x y => exact (x ||| y)), (.vxor f, fun x y => exact (x ^^^ y)),
    (.vandn f, fun x y => exact (x ^^^ (x &&& y))), (.vshl f, fun x y => exact (x * 2 ^ y)), (.vshr f, fun x y => exact (x / 2 ^ y)),
    (.vsar f, fun x y => exact (residue w (signed w x / 2 ^ y))),
    (.vcmp f, fun x y => exact (if holds (n x) (n y) then 2 ^ w - 1 else 0)) ]

/-- The lane-by-lane VI forms of one source, with what R170, R177 and R178 give for a lane. -/
def vectorOne (f : VForm) : List (Instr × (Nat → Nat × Bool)) :=
  let t := f.typ.toNat
  let w := tyW t
  [ (.vabs f, fun x => written f.sat t (num t x).natAbs),
    (.vpopc f, fun x => exact ((List.range w).filter fun i => x.testBit i).length),
    (.vclz f, fun x => exact ((List.range w).takeWhile fun i => !x.testBit (w - 1 - i)).length),
    (.vsat f, fun x => let h := held (bfld f.imm 0 5) (num t x); (residue w h.1, h.2)) ]

/-- One step of `VSCAN` by its operation code (spec R176). -/
def scanStep (sat : Bool) (t op p x : Nat) : Nat × Bool :=
  if op = 0 then written sat t (num t p + num t x) else if op = 1 then exact (p ^^^ x) else if op = 2 then exact (p ||| x)
  else if op = 3 then exact (p &&& x) else if op = 4 then exact (if num t x < num t p then x else p)
  else exact (if num t p < num t x then x else p)

/-- Where `VSCAN` starts, by its operation code (spec R176). -/
def scanStart (t op : Nat) : Nat :=
  if op = 3 then 2 ^ tyW t - 1 else if op = 4 then residue (tyW t) (greatest t) else if op = 5 then residue (tyW t) (least t) else 0

/-- The accumulator of `VSCAN` before lane i (spec R176). -/
def scanned (f : VForm) (a : Vec) (i : Nat) : Nat :=
  (List.range i).foldl (fun p j => (scanStep f.sat f.typ.toNat (bfld f.imm 0 3) p (el (tyW f.typ.toNat) a j)).1)
    (scanStart f.typ.toNat (bfld f.imm 0 3))

/-- The marked elements below n, in order (spec R175). -/
def marked (m : Vec) (n : Nat) : List Nat := (List.range n).filter fun i => m.getLsbD i

/-- Lane j of two vectors side by side (spec R174). -/
def pairEl (w : Nat) (a b : Vec) (j : Nat) : Nat := if j < 2048 / w then el w a j else el w b (j - 2048 / w)

/-! ### Floating values, from the tables of the spec -/

/-- The rounding a VF word works under (spec R70, R71). -/
def wordCtl (f : FForm) (s : State) : RCtl :=
  { rm := if f.rne then .rne else rmodeOf s.view.fp.rm.toNat, fzo := f.fzo, sat := f.sat }

/-- A vector of n elements of width w with the flags of each; `cr.fp.flags` takes them all (spec R72, R154). -/
def FloatResult (s t : State) (l : Loc) (lat : BitVec 2) (w n : Nat) (g : Nat → Nat × FlagSet) : Prop :=
  ∃ v, VectorResult s t l lat v ((List.range n).foldl (fun u i => u ||| (g i).2) 0) ∧ ∀ i, i < n → el w v i = (g i).1 % 2 ^ w

/-- The condition of `FCMP` by its code, the last of them, ordered, at 7 (spec R92, R160), and whether it sets NV: on any NaN for codes 2 to 5, else on a signalling one. -/
def compared (cc : Nat) (x y : FVal) : Bool × Bool :=
  let un := x.isNaN || y.isNaN
  let lt := !un && fLt x y
  let gt := !un && fLt y x
  let eq := !un && !lt && !gt
  (([eq, !eq, lt, lt || eq, gt, gt || eq, un] : List Bool).getD cc (!un),
    if 2 ≤ cc ∧ cc ≤ 5 then un else x.isSig || y.isSig)

/-- The two-source VF forms with what R156 to R160 give for a lane: an exact result rounded once, a choice, or a pattern of bits. -/
def floatTwo (f : FForm) (c : RCtl) : List (Instr × (Nat → Nat → Nat × FlagSet)) :=
  let t := f.typ.toNat
  let w := tyW t
  let x (a : Nat) : FVal := flushIn f.fzi t (unpackVal 0 t a)
  [ (.fadd f, fun a b => roundOp c t (addExact (c.rm = .rdn) (x a) (x b))),
    (.fsub f, fun a b => roundOp c t (addExact (c.rm = .rdn) (x a) ((x b).negIf true))),
    (.fmul f, fun a b => roundOp c t (mulExact (x a) (x b))), (.fdiv f, fun a b => roundOp c t (divExact (x a) (x b))),
    (.fscale f, fun a b => roundTo c t ((x a).scale (max (-4096) (min 4096 (signed w b))))),
    (.fmin f, fun a b => minmaxVal t false (x a) (x b)), (.fmax f, fun a b => minmaxVal t true (x a) (x b)),
    (.fcpys f, fun a b => (a % 2 ^ (w - 1) + b / 2 ^ (w - 1) * 2 ^ (w - 1), 0)),
    (.fcmp f, fun a b => (if (compared f.cc.toNat (x a) (x b)).1 then 2 ^ w - 1 else 0,
      if (compared f.cc.toNat (x a) (x b)).2 then 1 else 0)) ]

/-- The one-source VF forms with what R157 to R160 give for a lane. -/
def floatOne (f : FForm) (c : RCtl) : List (Instr × (Nat → Nat × FlagSet)) :=
  let t := f.typ.toNat
  let w := tyW t
  let x (a : Nat) : FVal := flushIn f.fzi t (unpackVal 0 t a)
  [ (.fsqrt f, fun a => roundOp c t (sqrtExact (x a))), (.fround f, roundLane f c),
    (.fabs f, fun a => (a % 2 ^ (w - 1), 0)), (.fneg f, fun a => (a ^^^ 2 ^ (w - 1), 0)),
    (.fclass f, fun a => (2 ^ classBit t (unpackVal 0 t a), 0)), (.frcp f, fun a => frcp f.fzo t a (x a)),
    (.frsq f, fun a => frsq f.fzo t a (x a)), (.fexp2 f, fun a => fexp2 f.fzo t a (x a)), (.flog2 f, fun a => flog2 f.fzo t a (x a)),
    (.ftanh f, fun a => ftanh f.fzo t a (x a)) ]

/-- The value n · 2^k of a code is faithful to the exact result x that makes `eq` of it one (spec R159): no other finite code of the type has a value
between the two, and x itself is chosen where a code has it. `eq` grows with the value, and gives a magnitude and its exponent. -/
def Faithful (t n : Nat) (k : Int) (eq : Nat → Int → Nat × Int) : Prop :=
  ∀ code n' k', code < 2 ^ tyW t → unpackBin t code = .fin false n' k' → ∀ u, u ≤ 0 → u ≤ (eq n k).2 → u ≤ (eq n' k').2 →
    let at_ (a : Nat) (q : Int) : Int := atExp false (eq a q).1 (eq a q).2 u
    ¬(at_ n k < at_ n' k' ∧ at_ n' k' ≤ atExp false 1 0 u) ∧ ¬(atExp false 1 0 u ≤ at_ n' k' ∧ at_ n' k' < at_ n k)

/-- The special values of the approximation forms, each with what R159 and log entry 79 give: the code and the flags. -/
def approxSpecial (fzo : Bool) (t inp : Nat) (neg : Bool) (e : Int) : List ((Nat × FlagSet) × (Nat × FlagSet)) :=
  let sg := if neg then 2 ^ ((fmtOf t).w - 1) else 0
  let top := 2 ^ ((fmtOf t).w - 1)
  [ (frcp fzo t inp (.fin neg 0 e), (sg + infCode t, 2)), (frcp fzo t inp (.inf neg), (sg, 0)),
    (frsq fzo t inp (.fin neg 0 e), (sg + infCode t, 2)), (frsq fzo t inp (.inf neg), if neg then (canonNaN t, 1) else (0, 0)),
    (frsq fzo t inp (.fin true 1 e), (canonNaN t, 1)),
    (fexp2 fzo t inp (.inf neg), (if neg then 0 else infCode t, 0)),
    (flog2 fzo t inp (.fin neg 0 e), (top + infCode t, 2)), (flog2 fzo t inp (.inf neg), (if neg then canonNaN t else infCode t, if neg then 1 else 0)),
    (flog2 fzo t inp (.fin true 1 e), (canonNaN t, 1)), (ftanh fzo t inp (.fin neg 0 e), (sg, 0)),
    (frcp fzo t inp (.nan neg), (canonNaN t, if neg then 1 else 0)), (frsq fzo t inp (.nan neg), (canonNaN t, if neg then 1 else 0)),
    (fexp2 fzo t inp (.nan neg), (canonNaN t, if neg then 1 else 0)), (flog2 fzo t inp (.nan neg), (canonNaN t, if neg then 1 else 0)),
    (ftanh fzo t inp (.nan neg), (canonNaN t, if neg then 1 else 0)) ]

/-- The fused forms: ±(a · b) ± c rounded once (spec R156). -/
def floatThree (f : FForm) (c : RCtl) : List (Instr × (Nat → Nat → Nat → Nat × FlagSet)) :=
  let t := f.typ.toNat
  let x (a : Nat) : FVal := flushIn f.fzi t (unpackVal 0 t a)
  let fused (p n : Bool) (a b d : Nat) : Nat × FlagSet :=
    roundOp c t (fmaExact (c.rm = .rdn) ((x a).negIf p) (x b) ((x d).negIf n))
  [(.fma f, fused false false), (.fms f, fused false true), (.fnma f, fused true false), (.fnms f, fused true true)]

/-- An operand that a form reads only in some of its cases. -/
def ReadIf (c : Bool) (m : Op Vec) (s : State) (v : Vec) (s1 : State) : Prop := if c then m s = .ok (v, s1) else v = 0 ∧ s1 = s

/-- A conversion of elements of width ws to width wd (spec R161): the part p of a widened, or a narrowed into the part p of d. -/
def PartResult (s t : State) (l : Loc) (lat : BitVec 2) (ws wd p : Nat) (old a : Vec) (g : Nat → Nat × FlagSet) : Prop :=
  if ws ≤ wd then FloatResult s t l lat wd (2048 / wd) fun i => g (el ws a (p * (2048 / wd) + i))
  else
    let n := 2048 / ws
    ∃ v, VectorResult s t l lat v ((List.range n).foldl (fun u i => u ||| (g (el ws a i)).2) 0)
      ∧ (∀ i, i < n → el wd v (p * n + i) = (g (el ws a i)).1 % 2 ^ wd)
      ∧ ∀ j, j < 2048 / wd → (j < p * n ∨ (p + 1) * n ≤ j) → el wd v j = el wd old j

/-! ### Transfers of control -/

/-- A packet lies among packets first to last of a nest (spec R115, R116). -/
def InBody (l : LoopSt) (p : W32) : Prop := (p - l.first).toNat ≤ (l.last - l.first).toNat

/-- The loop state after a taken branch to `p` (spec R116, R117). -/
def LoopAfter (a b : LoopSt) (p : W32) : Prop :=
  (a.act = true ∧ ¬InBody a p → b.act = false ∧ b.pend = false ∧ b.idx = [0, 0, 0, 0, 0, 0])
    ∧ (¬(a.act = true ∧ ¬InBody a p) → b = a)

/-- A taken branch to packet `p`: the target of the bundle, and the end of a nest it leaves; nothing else (spec R110, R116). -/
def Jump (s t : State) (p : W32) : Prop :=
  OnSelf [.issue] s t ∧ Alters [.loop] s.me t.me ∧ t.issue = { s.issue with tgt := some p } ∧ LoopAfter s.me.loop t.me.loop p

/-- The conditions of `BRC` by code (spec R110). -/
def BrcHolds (cc : BitVec 2) (a : W64) : Prop :=
  (cc = 0 ∧ a = 0) ∨ (cc = 1 ∧ a ≠ 0) ∨ (cc = 2 ∧ a.toInt < 0) ∨ (cc = 3 ∧ 0 ≤ a.toInt)

/-- The conditions of `BRV` by code (spec R110). -/
def BrvHolds (cc : BitVec 2) (a : Vec) : Prop :=
  let m := a.toNat % 2 ^ 256
  (cc = 0 ∧ m ≠ 0) ∨ (cc = 1 ∧ m = 2 ^ 256 - 1) ∨ (cc = 2 ∧ m = 0) ∨ (cc = 3 ∧ m ≠ 2 ^ 256 - 1)

/-- The bytes of one unit of the allotment: `n` bytes from `p` are a value's, the rest of the unit and the other units stay. -/
def UnitStored (a b : Strand) (u p n v : Nat) : Prop :=
  (∀ k, k < n → p + k < 256 → bfld (b.regUnit u) (8 * (p + k)) 8 = byteOf v k)
    ∧ (∀ o, o < 256 → ¬(p ≤ o ∧ o < p + n) → bfld (b.regUnit u) (8 * o) 8 = bfld (a.readUnit u) (8 * o) 8)
    ∧ ∀ w, w ≠ u → b.regUnit w = a.regUnit w

/-- A call to packet `p` (spec R39, R112): the link word in the last eight bytes of the frame, the callee's window of four units
from there, ENTER-pending, the target. -/
def Called (s t : State) (p : W32) : Prop :=
  OnSelf [.issue] s t ∧ Alters [.regs, .rot, .q, .win] s.me t.me
    ∧ UnitStored s.me t.me (s.view.rawUnit (s.view.win.f - 1)) 248 8 ((s.issue.pos.bpc + 1).toNat + s.view.win.f * 2 ^ 32)
    ∧ t.me.win = { s.me.win with
        base := s.me.win.base + s.me.win.f - 4, f := 4, hi := max s.me.win.hi (s.me.win.base + s.me.win.f), ep := true }
    ∧ RotKept s.me t.me ∧ QueuesKept s.me t.me ∧ t.issue = { s.issue with tgt := some p }

/-- A window unit is one that a save writes (spec R50, R131, R132). -/
def Strand.Saves (t : Strand) (full : Bool) (k : Nat) : Prop :=
  k < t.win.f ∧ (full = true ∨ t.sch.phA.toNat.testBit (k / 32) = true) ∧ t.deadUnit k = false

/-- The record that a suspension leaves (spec R18, R20, R34, R131, R132): SUSPENDED for its reason, out of its slot, its live field the blocks
saved; the window without its spilled part; the units and scratchpad words that were saved, and the state that is never saved. -/
def Suspended (t u : Strand) (reason : Nat) (full : Bool) : Prop :=
  u.id = { t.id with state := 3, reason := reason, full := full, live := u.id.live }
    ∧ (∀ b, b < 32 → (u.id.live.getLsbD b = true ↔ ∃ k, k / 32 = b ∧ t.Saves full k))
    ∧ u.place = { t.place with resident := false }
    ∧ u.win.base = t.win.base ∧ u.win.f = t.win.f ∧ u.win.ep = t.win.ep ∧ u.win.lo = t.win.base ∧ u.win.hi = t.win.base + t.win.f
    ∧ (t.win.f ≤ t.fr.wsize → ∀ k, t.Saves full k → u.regUnit (t.rawUnit k) = t.regUnit (t.rawUnit k))
    ∧ (∀ w, (t.sword w).freed = true ∨ t.savesWord full w (t.sword w) = true → SMap.wf {} t.scr = true → u.sword w = t.sword w)
    ∧ u.vpend = [] ∧ u.pkt = none ∧ u.sch.stop = none
    ∧ Alters [.id, .place, .win, .regs, .scr, .vpend, .pkt, .q, .sch] t u

/-- The add that a launch node makes where its LPB names a VA (spec R29). -/
def doneWord (v : Node) (n : Nat) : WordWr :=
  { part := v.part, pasid := v.pasid.toNat, va := bfld v.lpb 448 64, len := 8, val := 1, add := true, after := .launch n }

/-- A launch node completes, leaving `u` (spec R29): DONE, once its add has been made where it has one. -/
def Completes (s u : State) (n : Nat) : Prop :=
  let v := s.node n
  (bfld v.lpb 448 64 = 0 → u = s.setNode n { v with st := .done })
    ∧ (bfld v.lpb 448 64 ≠ 0 → ∀ w, s.wordWrite (doneWord v n) = .ok w → u = w.setNode n { w.node n with st := .done })

/-- The strand asks to stop at the end of the bundle; a trap asked for before stays (spec R119, R124). -/
def AsksStop (s t : State) (r : StopReq) : Prop :=
  Sets [.sch] s t
    ∧ ((∃ i p, s.me.sch.stop = some (.trap i p)) → t.me.sch = s.me.sch)
    ∧ ((¬∃ i p, s.me.sch.stop = some (.trap i p)) → t.me.sch = { s.me.sch with stop := some r })

/-! ### Queues -/

/-- One more access stands last in the strand's queues, numbered next (spec R195). -/
def Enters (s t : State) (q : QKind) (act : Act) (dst : Option RDst) (toLm : Bool) (scope : Nat) (rel : Bool) : Prop :=
  t.me.q = { s.me.q with
    next := s.me.q.next + 1
    accs := s.me.q.accs ++ [{ id := s.me.q.next, q := q, act := act, dst := dst, toLm := toLm, scope := scope, rel := rel,
                              pos := s.issue.pos, wi := s.issue.wi, word := s.issue.word }] }
    ∧ t.me.files = if toLm then { s.me.files with lmWait := some s.me.q.next } else s.me.files

/-! ### Memory accesses -/

/-- What a word that queues one access leaves: `u` is the state with its addresses translated (leases, A and D bits; spec R184, R187),
which gives memory, the queues and the bits its bundle has set; the access stands last in the queues, and nothing else changed. -/
def Queued (s u t : State) (q : QKind) (act : Act) (dst : Option RDst) (toLm : Bool) (scope : Nat) (rel : Bool) : Prop :=
  OnSelf [.mem, .issue] s t ∧ t.mem = u.mem ∧ t.issue = u.issue ∧ Alters [.q, .files] s.me t.me ∧ Enters u t q act dst toLm scope rel

/-- A `MEMORY` trap (spec R185): the code, the VA, and in aux0 the kind of access and the level. -/
def memoryTrap (code : Nat) (va : W64) (kind : Nat) : TrapInfo :=
  { cls := 0x08, code := code, va := va, aux0 := BitVec.ofNat 64 kind }

/-- The scalar global loads: bytes, and whether the value is sign-extended (spec R203). -/
def loadForms (f : MForm) : List (Instr × Nat × Bool) :=
  [(.ldI8 f, 1, true), (.ldI16 f, 2, true), (.ldI32 f, 4, true), (.ldN8 f, 1, false), (.ldN16 f, 2, false), (.ldN32 f, 4, false),
   (.ldI64 f, 8, true)]

/-- The scalar scratchpad loads (spec R203). -/
def loadsForms (f : MForm) : List (Instr × Nat × Bool) :=
  [(.ldsI8 f, 1, true), (.ldsI16 f, 2, true), (.ldsI32 f, 4, true), (.ldsN8 f, 1, false), (.ldsN16 f, 2, false),
   (.ldsN32 f, 4, false), (.ldsI64 f, 8, true)]

/-- The scalar stores, global and scratchpad, with the bytes of each (spec R203). -/
def storeForms (f : MForm) : List (Instr × Instr × Nat) :=
  [(.stI8 f, .stsI8 f, 1), (.stI16 f, .stsI16 f, 2), (.stI32 f, .stsI32 f, 4), (.stI64 f, .stsI64 f, 8)]

/-- A run of scratchpad bytes can be read at issue (spec R191): every word valid, or the partition's mode is LOG, and no queued
`SPALLOC` or `SPFREE` can change that. -/
def SpadReady (s : State) (off n : Nat) : Prop :=
  (s.part s.me.id.part).spMode = true
    ∨ (∀ k, k < n → (s.me.sword ((off + k) / 8)).valid = true)
      ∧ ∀ a, a ∈ s.me.q.accs → ∀ b m, a.act ≠ .spalloc b m ∧ a.act ≠ .spfree b m

/-- The elements of a gather or scatter that a mask selects: the index, and a + b[i] · 2^h as a signed element (spec R208). -/
def indexed (f : AForm) (a : W64) (b m : Vec) : List (Nat × W64) :=
  let w := tyW f.typ.toNat
  ((List.range (2048 / w)).filter fun i => m.getLsbD i).map fun i => (i, a + int64 (signed w (el w b i) * 2 ^ bfld f.fn 0 2))

/-- The sources of a gather or scatter read: the base, the indices, and the mask, which is all ones where c is 60 (spec R208). -/
def GsReads (f : AForm) (s : State) (es : List (Nat × W64)) : Prop :=
  ∃ a b c s1 s2 s3, Op.readS f.a 10 s = .ok (a, s1) ∧ Op.readV f.b 4 (laneVec (tyW f.typ.toNat)) s1 = .ok (b, s2)
    ∧ ReadIf (decide (f.c ≠ 60)) (Op.readV f.c 54 (laneVec (tyW f.typ.toNat))) s2 c s3
    ∧ es = indexed f a b (if f.c = 60 then BitVec.allOnes 2048 else c)

/-- The six atomics with their operation codes (spec R213); the last compares and swaps. -/
def atomicForms (f : AForm) : List (Instr × Nat) :=
  [(.aadd f, 0), (.amin f, 1), (.amax f, 2), (.alog f, 3 + bfld f.fn 0 2), (.axchg f, 6), (.acas f, 7)]

/-- The bytes of memory from `a` hold a value's, the others stay. -/
def BytesPut (m m' : Mem) (a n v : Nat) : Prop :=
  (∀ k, k < n → (m'.byte (a + k)).toNat = byteOf v k) ∧ ∀ b, ¬(a ≤ b ∧ b < a + n) → m'.byte b = m.byte b

/-- An access of `n` bytes of one frame counts in the share window, once for each line it touches, and nothing else of the memory changes (spec
R334; log entry 104). -/
def Counted (m m' : Mem) (a n : Nat) : Prop :=
  m' = { m with hits := m'.hits }
    ∧ ∀ f, SMap.get 0 m'.hits f = SMap.get 0 m.hits f + if f = a / 65536 then (a + n - 1) / 64 - a / 64 + 1 else 0

/-- A leaf entry that a walk of a kind accepts at a level (spec R182, R183): valid, a leaf, homed here, resident, permitted, no reserved
bit; a 512 MiB page starts on its own size. -/
def LeafOk (m : Mem) (e lvl : Nat) (kind : WKind) : Prop :=
  e.testBit 0 = true ∧ e.testBit 1 = true ∧ e.testBit 7 = true ∧ nfld e 53 11 = m.devid.toNat ∧ nfld e 39 9 = 0 ∧ nfld e 48 5 = 0
    ∧ nfld e 8 8 = 0 ∧ e.testBit 6 = false ∧ (kind = .write → e.testBit 2 = true) ∧ (kind = .fetch → e.testBit 3 = true)
    ∧ (lvl = 2 → nfld e 16 13 = 0)

/-- An entry, at an address, that names a table node the walker reads (spec R182, R188): valid, no leaf, homed here, resident, no reserved bit, its
frame not busy. -/
def NodeOk (m : Mem) (src e : Nat) : Prop :=
  e.testBit 0 = true ∧ e.testBit 1 = false ∧ e.testBit 7 = true ∧ nfld e 53 11 = m.devid.toNat ∧ nfld e 39 9 = 0 ∧ nfld e 48 5 = 0
    ∧ nfld e 8 8 = 0 ∧ e.testBit 6 = false ∧ m.frameBusy (m.nodeFrame src e) = false

/-- The address of the entry of an index in the node that an entry names, in the node's new frame where it has migrated (spec R183, R188). -/
def entryAt (m : Mem) (src e i : Nat) : Nat := m.nodeFrame src e * 65536 + 8 * i

/-- How a translation of a VA may end (spec R181, R183; log entry 18): as the walk does, and its translation is cached; or as a cached one
that no invalidation has met. -/
def Finds (m : Mem) (pasid va : Nat) (kind : WKind) (o : Except WFault WDone) : Prop :=
  (∃ d, m.walk pasid va kind = .ok d ∧ o = .ok { d with mem := d.mem.learn (d.cached pasid va) })
    ∨ (∃ f, m.walk pasid va kind = .error f ∧ o = .error f)
    ∨ ∃ c ∈ m.tlb, c.covers pasid va kind = true ∧ o = .ok { pa := c.pa + va % 2 ^ c.lg, lg := c.lg, mem := m }

/-- The new value of an atomic by its operation code (spec R213, R263). -/
def atomicValue (op typ m b c : Nat) : Nat :=
  let w := tyW typ
  if op = 0 then
    if 16 ≤ typ then (roundOp {} typ (addExact false (unpackVal 0 typ m) (unpackVal 0 typ b))).1 else (m + b) % 2 ^ w
  else if op = 1 then if num typ b < num typ m then b else m
  else if op = 2 then if num typ m < num typ b then b else m
  else if op = 3 then m &&& b
  else if op = 4 then m ||| b
  else if op = 5 then m ^^^ b
  else if op = 6 then b
  else if m = b then c else m

/-- One element of a bank-side command by its operation code: `MRED` 0 to 5, `MCAS` 0x20 with what it compares and puts, `MSACC` 0x21 with
its scale (spec R215). -/
def bankValue (op typ : Nat) (sat : Bool) (l v x y : Nat) (scale : FVal) : Nat :=
  if op = 0x20 then if l = x then y else l
  else if op = 0x21 then (roundOp {} typ (fmaExact false scale (unpackVal 0 typ v) (unpackVal 0 typ l))).1
  else if 16 ≤ typ ∧ op ≠ 0 then (minmaxVal typ (op = 2) (unpackVal 0 typ l) (unpackVal 0 typ v)).1
  else if op = 0 ∧ typ < 16 then (written sat typ (num typ l + num typ v)).1
  else atomicValue op typ l v 0

/-- Element i of width w of a line. -/
def lineEl (w : Nat) (l : Line) (i : Nat) : Nat := l.toNat / 2 ^ (w * i) % 2 ^ w

/-- A loaded number as its destination takes it: a scalar of w bits extended to 64, or 256 bytes where w is 0 (spec R203). -/
def extended (sign : Bool) (w v : Nat) : Nat :=
  if w = 0 then v else if sign then (int64 (signed w (v % 2 ^ w))).toNat else v % 2 ^ w

/-- The bytes of memory that segments name hold a value's, each segment at its offset, where no two segments share a byte; the others stay. -/
def SegsPut (m m' : Mem) (segs : List Seg) (v : Nat) : Prop :=
  (segs.Pairwise (fun g h => g.pa + g.len ≤ h.pa ∨ h.pa + h.len ≤ g.pa) →
      ∀ g ∈ segs, ∀ k, k < g.len → (m'.byte (g.pa + k)).toNat = byteOf v (g.off + k))
    ∧ ∀ b, (∀ g ∈ segs, ¬(g.pa ≤ b ∧ b < g.pa + g.len)) → m'.byte b = m.byte b

/-- The access by which `QMARK`, `FENCE` and the waits keep a place in both queues (spec R195). -/
def markAccess (s : State) (id : Nat) : Access :=
  { id := id, q := .both, act := .mark, pos := s.issue.pos, wi := s.issue.wi, word := s.issue.word }

/-- The access has left the queues of its strand, the other strands stay. -/
def LeftQueue (s t : State) (sid : Nat) (a : Access) (fs : List StrandPart) : Prop :=
  (∀ i, i ≠ sid → t.strand? i = s.strand? i) ∧ ∃ x y, s.strand? sid = some x ∧ t.strand? sid = some y
    ∧ Alters (.q :: .files :: fs) x y ∧ y.q = { x.q with accs := x.q.accs.filter fun b => b.id ≠ a.id }

/-- A result has landed (spec R48, R54, R83): in its place, but for bytes taken over by a later word of its bundle, and in `lm` or `lx`
where they await it. -/
def LandedIn (s t : State) (sid : Nat) (a : Access) (v : Nat) : Prop :=
  LeftQueue s t sid a [.regs, .rot] ∧ ∃ x y, s.strand? sid = some x ∧ t.strand? sid = some y
    ∧ (match a.dst with
      | none => RegsKept x y
      | some ⟨.reg u p n, skip⟩ => u < x.fr.wsize →
          (∀ k, k < n → p + k < 256 → y.regByte u (p + k) = if skip.getLsbD k then x.regByte u (p + k) else byteOf v k)
            ∧ (∀ w o, w < x.fr.wsize → o < 256 → ¬(w = u ∧ p ≤ o ∧ o < p + n) → y.regByte w o = x.regByte w o)
            ∧ ∀ i, y.entry i = x.entry i
      | some ⟨.ofile i n, skip⟩ => y.entry i = (if skip = 0 then BitVec.ofNat 2048 (v % 2 ^ (8 * n)) else x.entry i)
          ∧ (∀ j, j ≠ i → y.entry j = x.entry j) ∧ ∀ w o, y.regByte w o = x.regByte w o)
    ∧ (y.files.lm, y.files.lmWait) =
        (if a.toLm = true ∧ x.files.lmWait = some a.id then (BitVec.ofNat 2048 v, none) else (x.files.lm, x.files.lmWait))
    ∧ (y.files.lx, y.files.lxWait) =
        (if a.toLx = true ∧ x.files.lxWait = some a.id then (BitVec.ofNat 64 v, none) else (x.files.lx, x.files.lxWait))
    ∧ y.files.ls = x.files.ls ∧ y.files.lv = x.files.lv

/-- A read met a line that fails its check (spec R124, R193): the access has left the queues, no destination is written, nothing awaits it, and the
strand, if it has not ended, stops with `INTEGRITY` at the access's bundle. -/
def FailedRead (s t : State) (sid : Nat) (a : Access) (va : Nat) : Prop :=
  (∀ i, i ≠ sid → t.strand? i = s.strand? i) ∧ ∃ x y, s.strand? sid = some x ∧ t.strand? sid = some y
    ∧ Alters [.q, .files, .sch] x y ∧ y.q.accs = x.q.accs.filter (fun b => b.id ≠ a.id) ∧ RegsKept x y
    ∧ y.files.lm = x.files.lm ∧ y.files.lx = x.files.lx
    ∧ y.files.lmWait = (if x.files.lmWait = some a.id then none else x.files.lmWait)
    ∧ y.files.lxWait = (if x.files.lxWait = some a.id then none else x.files.lxWait)
    ∧ (x.id.state = 7 → y.sch = x.sch)
    ∧ (x.id.state ≠ 7 → y.sch = { x.sch with
        stop := some (.trap { cls := 0x09, code := 0, va := BitVec.ofNat 64 va, wi := a.wi, word := a.word } a.pos) })

/-- Memory as a partial write leaves it (spec R192, R193): a line that fails its check and is not covered whole keeps its bytes, the others take the
value's; a line covered whole has a check that holds. -/
def StoredPast (m m' : Mem) (a n v : Nat) : Prop :=
  (∀ b, m'.byte b = if (a ≤ b ∧ b < a + n) ∧ (m.lineBad (b / 64) = false ∨ coversLine a n (b / 64) = true)
      then BitVec.ofNat 8 (byteOf v (b - a)) else m.byte b)
    ∧ ∀ l, m'.lineBad l = (m.lineBad l && !(decide (l ∈ linesOf a n) && coversLine a n l))

/-- The packets of a strand's own remote access leave it as those of its access, under the next tag (spec R210, R310). -/
def SentBy (u t : State) (sid : Nat) (x : Strand) (a : Access) (p : List Txn) : Prop :=
  t = u.takeTag.2.sendPkts (.access sid a.id) x.id.part u.takeTag.1 p

/-- Byte `o` of a strand's scratchpad (spec R191). -/
def Strand.spadByte (t : Strand) (o : Nat) : Nat := bfld (t.sword (o / 8)).data (8 * (o % 8)) 8

/-- The runs of a save frame written in order at their VAs: whole lines, so that none of them meets a check, each with a check that holds, or
that fails where the scratchpad line's did (spec R133, R193). -/
def FrameWritten (t : Strand) : List (Nat × Nat × Nat × Bool) → State → State → Prop
  | [], s, u => u = s
  | (off, n, v, good) :: r, s, u => ∃ segs s1 m,
      s.translate t.id.pasid.toNat ((t.fr.save.toNat + off) % 2 ^ 64) n .write = .ok (segs, s1)
        ∧ ((∀ g ∈ segs, g.pa % 64 = 0 ∧ g.len % 64 = 0) → SegsPut s1.mem m segs v
            ∧ ∀ g ∈ segs, ∀ l ∈ linesOf g.pa g.len, m.lineBad l = !good)
        ∧ FrameWritten t r { s1 with mem := m } u

/-! ### Engines -/

/-- Bytes from a VA lie in one local page at an address, which nothing bars and whose walk leaves memory as it is: it has the page's bits and the
translation already (spec R181 to R184, R281). -/
def Reaches (s : State) (pasid va n : Nat) (kind : WKind) (pa : Nat) : Prop :=
  s.parcelAt pasid va n = none ∧ pieces va n = [(0, va, n)] ∧ s.isLocal va = true ∧ s.mem.frozen pasid va = false ∧ s.mem.paBusy pa n = false
    ∧ ∃ d : WDone, s.mem.find pasid va kind = .ok d ∧ d.pa = pa ∧ d.mem = s.mem

/-- What an M word that lands at issue leaves (spec R48, R201): `v` in d and in `lm`. -/
def MemoryResult (ps : List StatePart) (s t : State) (l : Loc) (v : W64) : Prop :=
  Delivers ps [] 3 s t l v.toNat ∧ t.me.files.lm = v.setWidth 2048 ∧ t.me.files.lmWait = none

/-- A wait that is over (spec R32): the strand goes on, and the word keeps its place in both queues. -/
def WaitOver (s t : State) : Prop :=
  Sets [.q, .sch] s t ∧ t.me.sch = { s.me.sch with waitDone := false }
    ∧ t.me.q = { s.me.q with next := s.me.q.next + 1, accs := s.me.q.accs ++ [markAccess s s.me.q.next] }

/-- A wait that is not over: the strand waits for the target, kind and context (spec R32). -/
def Waits (i : Instr) (s : State) (kind ctx : Nat) (val : W64) (reason : Nat) : Prop :=
  exec i s = .next ((s.setBits s.issue.walked).applyStop (.wait kind ctx val reason))

/-- The queue entry after which an engine command may start (spec R225, R252, R261). -/
def cmdAccess (s : State) : Access :=
  { id := s.me.q.next, q := .both, act := .cmd, pos := s.issue.pos, wi := s.issue.wi, word := s.issue.word }

/-- An engine context has taken one more number, and no other context changed (spec R217). -/
def TookNumber (s t : State) (c : Nat) : Prop :=
  t.ctx c = { s.ctx c with issued := (s.ctx c).issued + 1 } ∧ ∀ k, k ≠ c → t.ctx k = s.ctx k

/-- The number that a context gives next (spec R217). -/
def nextNumber (s : State) (c : Nat) : W64 := (s.ctx c).issued + 1

/-- A command word of an engine leaves (spec R48, R217): its number in d and in the last-result entry `last`, an entry in both queues,
the number taken; `ps` lists where the command stands. -/
def Commands (ps : List StatePart) (last : Nat) (s t : State) (c : Nat) (l : Loc) : Prop :=
  OnSelf (.ctxs :: ps) s t ∧ Alters [.regs, .files, .rot, .q] s.me t.me ∧ Stored s.me t.me l (nextNumber s c).toNat
    ∧ LastKept [last] s.me t.me ∧ RotKept s.me t.me ∧ TookNumber s t c ∧ t.me.q.next = s.me.q.next + 1
    ∧ t.me.q.accs.map Access.bare = s.me.q.accs.map Access.bare ++ [cmdAccess s]
    ∧ (if last = 3 then t.me.files.lm = (nextNumber s c).setWidth 2048 ∧ t.me.files.lmWait = none
       else t.me.files.lx = nextNumber s c ∧ t.me.files.lxWait = none)

/-- The fabric engine has nothing to do: no command, no answer and no packet that waits for a link. -/
def FabQuiet (s : State) : Prop :=
  s.fab.cmds = [] ∧ s.fab.answers = [] ∧ ∀ o ∈ s.fab.outs, ∀ p ∈ o.pkts, p.st ≠ .waits

/-- A fabric command as a word issues it (spec R217, R259, R261). -/
def fabCommand (s : State) (x : Nat) (rel : Bool) (kind : FabKind) : FabCmd :=
  { ctx := 8192 + x, seq := (nextNumber s (8192 + x)).toNat, sid := s.cur, gate := s.me.q.next, part := s.view.id.part,
    pasid := s.view.id.pasid.toNat, node := s.view.id.launch.toNat, rel := rel, kind := kind }

/-- With room in the context, a word issues a fabric command and answers its number; `ps` lists other pieces it may change. -/
def FabIssues (ps : List StatePart) (i : Instr) (s : State) (x : Nat) (l : Loc) (rel : Bool) (kind : FabKind) : Prop :=
  (s.fab.cmds.filter fun c => c.ctx = 8192 + x).length < 64 → ∃ t, exec i s = .next t
    ∧ Commands (.fab :: ps) 1 s t (8192 + x) l ∧ t.fab = { s.fab with cmds := s.fab.cmds ++ [fabCommand s x rel kind] }

/-- The fabric context of a word belongs to its partition (spec R259). -/
def OwnsFab (s : State) (x : Nat) : Prop := (s.part s.view.id.part).fab.getLsbD x = true

/-- A trap of an execution check: the field, six bits wide, and the value it reports (spec R124, R139). -/
def fieldTrap (lo : Nat) (v : W64) : TrapInfo := { cls := 0x04, code := 0, flo := lo, fw := 6, va := v }

/-- A barrier VA names an object line of the home of the target (spec R264). -/
def BarrierOk (target bar : W64) : Prop := bar.toNat % 64 = 0 ∧ homeOf bar.toNat = homeOf target.toNat

/-- A collective descriptor keeps the limits of R273 and R274, for the members of its group. -/
def CollGood (s : State) (d : Line) : Prop :=
  let ms := s.members (bfld d 32 12)
  let p := ms.length
  let kind := bfld d 8 4
  let typ := bfld d 16 5
  let n := bfld d 224 32
  let send := if kind = 2 then n / p * tyW typ else n * tyW typ
  let recv := if kind = 1 then n / p * tyW typ else n * tyW typ
  bfld d 0 8 = 1 ∧ bfld d 21 11 = 0 ∧ bfld d 44 164 = 0 ∧ bfld d 384 128 = 0 ∧ kind ≤ 2
    ∧ (kind ≠ 2 → bfld d 12 4 ≤ 2 ∧ typ ∈ [2, 3, 6, 7, 16, 17, 18, 19]) ∧ (kind = 2 → typ ≤ 8 ∨ (16 ≤ typ ∧ typ ≤ 24))
    ∧ bfld d 208 16 ≠ 0 ∧ n ≠ 0 ∧ s.isLocal (bfld d 256 64) = true ∧ bfld d 256 64 % 64 = 0 ∧ s.isLocal (bfld d 320 64) = true
    ∧ bfld d 320 64 % 64 = 0 ∧ (∃ m ∈ ms, m.1 = s.mem.devid.toNat) ∧ (kind ≠ 0 → n % p = 0) ∧ send % 512 = 0 ∧ recv % 512 = 0
    ∧ (recv / 512 + bfld d 208 16 - 1) / bfld d 208 16 ≤ 65536

/-! ### Parcels -/

/-- What a word leaves that answers `v` in d and `lx` and keeps a place in both queues (spec R48, R205). -/
def MarkedResult (ps : List StatePart) (fs : List StrandPart) (s t : State) (l : Loc) (v : Nat) : Prop :=
  OnSelf ps s t ∧ Alters (.regs :: .files :: .rot :: .q :: fs) s.me t.me ∧ Stored s.me t.me l v ∧ LastKept [1] s.me t.me
    ∧ RotKept s.me t.me ∧ t.me.q.next = s.me.q.next + 1
    ∧ t.me.q.accs.map Access.bare = s.me.q.accs.map Access.bare ++ [markAccess s s.me.q.next]
    ∧ t.me.files.lx.toNat = v ∧ t.me.files.lxWait = none

/-- A `PARCEL` trap (spec R283): the code, aux0, aux1 and the VA. -/
def parcelError (code aux0 aux1 va : Nat) : TrapInfo :=
  { cls := 0x0C, code := code, va := BitVec.ofNat 64 va, aux0 := BitVec.ofNat 64 aux0, aux1 := BitVec.ofNat 64 aux1 }

/-- A handle names slot x of the strand's partition in its present generation, and the slot is OPEN (spec R278, R282). -/
def HandleNames (s : State) (h : W64) (x : Nat) : Prop :=
  let p := s.part s.view.id.part
  x = bfld h 0 12 ∧ bfld h 12 4 = 0 ∧ p.pcLo ≤ x ∧ x < p.pcLo + p.pcN ∧ bfld h 16 16 = (s.slot x).gen.toNat ∧ (s.slot x).st ≠ 0
    ∧ ((s.slot x).st < 2 ∨ 5 < (s.slot x).st)

/-- A run of bytes can be an extent or an armed region (spec R284, R289). -/
def ExtentFit (s : State) (a b : W64) : Prop :=
  s.isLocal a.toNat = true ∧ a.toNat % 64 = 0 ∧ b.toNat % 64 = 0 ∧ 64 ≤ b.toNat ∧ b.toNat ≤ 2 ^ 26
    ∧ ∀ e ∈ s.slots, e.2.st ≠ 0 → e.2.pasid = s.view.id.pasid.toNat →
      ¬(a.toNat < e.2.base.toNat + e.2.size ∧ e.2.base.toNat < a.toNat + b.toNat)

/-- The slots are the same but for one, whose new value is given. -/
def SlotSet (s t : State) (x : Nat) (v : Slot) : Prop := t.slot x = v ∧ ∀ k, k ≠ x → t.slot k = s.slot k

/-- The generation that follows one: 0 is passed over (spec R279). -/
def nextGen (g : BitVec 16) : BitVec 16 := if g = 0xFFFF then 1 else g + 1

/-! ### Transactions received -/

/-- A transaction arrives that its home or target takes up: of operation `op`, well formed, for this device, with no earlier packet of its
command stalled here (spec R264, R310). -/
def Arrives (s : State) (t : Txn) (op : Nat) : Prop :=
  t.op = op ∧ t.reserved = false ∧ t.dst = s.mem.devid.toNat ∧ t.count = t.units.length
    ∧ ∀ u ∈ s.fab.stalled, ¬(u.src = t.src ∧ u.tag = t.tag)

/-- The event leaves the state `u` with an answer on its way. -/
def Answers (i : Instr) (s u : State) (ans : Txn) : Prop := exec i s = .next ((u.placeAnswer ans).fabTick)

/-- The transaction waits here whole, in the state `u` (spec R189, R333). -/
def StallsIn (i : Instr) (s u : State) (t : Txn) : Prop :=
  exec i s = .next { u with fab := { u.fab with stalled := u.fab.stalled ++ [t] } }

/-- Every data unit of a transaction arrived with a good check. -/
def UnitsGood (t : Txn) : Prop := ∀ u ∈ t.units, u.ok = true

/-- A walk at the home that ends in a fault (spec R188, R190, R212, R264): a DONE of status 2 with the `MEMORY` code, and an event where it met a
node with a remote home; a frozen page stalls. -/
def HomeFaults (i : Instr) (s u : State) (t : Txn) (f : VFault) : Prop :=
  match f with
  | .frozen => StallsIn i s u t
  | .mem c va => Answers i s (u.nodeSeen (2 ^ 16) t.pasid va c) (u.doneTxn t 2 c 0)
  | .pageIn c _ => Answers i s u (u.doneTxn t 2 c 0)
  | .parcel _ _ => Answers i s u (u.doneTxn t 2 0 0)

/-- A line at the home fails its check (spec R193, R264): a DONE of status 3, and a host event for it. -/
def HomeLineFails (i : Instr) (s u : State) (t : Txn) (l : Nat) : Prop := Answers i s (u.lineEvent (2 ^ 16) l) (u.doneTxn t 3 0 0)

/-- The bytes of a segment lie in one run of its own, whose lines all pass their check. -/
def SegGood (m : Mem) (g : Seg) (n : Nat) : Prop := g.off = 0 ∧ g.len = n ∧ ∀ l, l ∈ linesOf g.pa n → m.lineBad l = false

/-! ### Queues and management -/

/-- Mandrel serves queue `i` and fetches packet `p`, from a host ring whose page it holds translated or from its ring in memory; `u` is the
state with the ring's addresses translated (spec R336, R340). -/
def Fetched (s : State) (i : Nat) (p : Pkt) (u : State) : Prop :=
  s.served i = true ∧ (((s.queue i).inHost = true ∧ s.translated i = true ∧ u = s) ∨ ((s.queue i).inHost = false ∧ s.ringPkt i = .ok (p, u)))

/-- A packet is malformed with a code: the handler packet leaves, and the packet is accepted (spec R344). -/
def Malformed (c : Instr) (s u : State) (i : Nat) (p : Pkt) (code : Nat) : Prop :=
  exec c s = .next ((u.accept i).handlerPkt i (pktBits p % 2 ^ 256) (s.queue i).off code 0)

/-- A MGMT packet of a subtype that may act (spec R345). -/
def MgmtGood (u : State) (i : Nat) (p : Pkt) (sub : Nat) : Prop :=
  pktType p = 6 ∧ pktSub p = sub ∧ (u.queue i).isPf = true ∧ p.q0 ≠ 0 ∧ p.q0.toNat % 8 = 0 ∧ u.isLocal p.q0.toNat = true ∧ p.q5 = 0
    ∧ bfld p.hdr 52 12 = 0

/-- A request has acted, leaving `r`, and its completion is written with a code (spec R345). -/
def Managed (c : Instr) (s u r : State) (i : Nat) (p : Pkt) (code : Nat) : Prop :=
  exec c s = .next ((r.writeComp { u.compOf i p with code := code }).accept i)

/-- A refused request changes nothing but its completion, MGMT_DENIED (spec R346). -/
def Denied (c : Instr) (s u : State) (i : Nat) (p : Pkt) : Prop := Managed c s u u i p 7

/-! ### Traps -/

/-- The state that a stop of the word at hand meets: the bits that earlier walks of its bundle set are set (spec R184). -/
def State.walks (s : State) : State := s.setBits s.issue.walked

/-- An operation stops: the reason, with the bits its bundle has set so far. -/
def Stops {α : Type} (m : Op α) (s : State) (x : Stop) : Prop := m s = .error ⟨x, s.issue.walked⟩

/-- An operation raises a trap of the word at hand (spec R125). -/
def Raises {α : Type} (m : Op α) (s : State) (e : TrapInfo) : Prop :=
  Stops m s (.trap { e with wi := s.issue.wi, word := s.issue.word })

/-- A precise trap of the word at hand that the state `u` of its reads gives: what the stop does to the machine as it stood, with the bits set that
walks up to `u` set, and no effect of the word (spec R124, R125, R184). -/
def TrapsAfter (i : Instr) (s u : State) (e : TrapInfo) : Prop :=
  exec i s = .next ((s.setBits u.issue.walked).applyStop (.trap { e with wi := s.issue.wi, word := s.issue.word }))

/-- A precise trap of the word at hand, before any walk of its own (spec R124, R125). -/
def TrapsWith (i : Instr) (s : State) (e : TrapInfo) : Prop := TrapsAfter i s s e

/-- The bundle is not ready, and the word has no effect (spec R33, R54). -/
def Stalls (i : Instr) (s : State) : Prop := exec i s = .next (s.walks.applyStop .stall)

/-- What a word does with a handle that names no OPEN slot of its partition (spec R278, R282). -/
def HandleTraps (i : Instr) (s : State) (h : W64) : Prop :=
  let x := bfld h 0 12
  let v := s.slot x
  let names := s.slotOwn s.view.id.part x = true ∧ v.gen.toNat = bfld h 16 16 ∧ v.st ≠ 0 ∧ v.st ≠ 4 ∧ v.st ≠ 5
  (bfld h 12 4 ≠ 0 → TrapsWith i s (fieldTrap 10 h))
    ∧ (bfld h 12 4 = 0 → ¬names → TrapsWith i s (parcelError 0x01 (bfld h 0 32) 0 0))
    ∧ (bfld h 12 4 = 0 → names → v.st = 2 ∨ v.st = 3 → TrapsWith i s (parcelError 0x02 (bfld h 0 32) 0 0))

/-- Accesses that come first have all performed: of other strands, which `busy` tells, and of this one (spec R284, R291). -/
def ClearAhead (s : State) (busy : Bool) (p : Access → Bool) : Prop :=
  busy = false ∧ (∀ e ∈ s.view.q.accs, p e = false) ∧ ∀ e ∈ s.me.q.accs, p e = false

/-- A word that waits for accesses that come first: issue waits for those of other strands and of earlier bundles, and those of earlier words of its
bundle perform first (spec R195, R284, R291). -/
def WaitsQuiet (i : Instr) (s : State) (busy : Bool) (p : Access → Bool) : Prop :=
  (busy = true ∨ (∃ e ∈ s.view.q.accs, p e = true) → Stalls i s)
    ∧ (busy = false → (∀ e ∈ s.view.q.accs, p e = false) → (∃ e ∈ s.me.q.accs, p e = true) → exec i s = .next (s.walks.applyStop .own))

/-- A parcel access stands in the queues, numbered next, as one that passed its check on slot x; the others stay (spec R195, R282, R291). -/
def PassedSlot (s t : State) (x : Nat) (q : QKind) (act : Act) (dst : Option RDst) (toLx : Bool) : Prop :=
  (∃ e ∈ t.me.q.accs, e.id = s.me.q.next ∧ e.q = q ∧ e.act = act ∧ e.dst = dst ∧ e.toLx = toLx ∧ e.slot = some x)
    ∧ t.me.q.next = s.me.q.next + 1 ∧ t.me.q.toks = s.me.q.toks
    ∧ ∀ b : Access, b.id ≠ s.me.q.next → (b ∈ t.me.q.accs ↔ b ∈ s.me.q.accs)

/-- The fields of a trap record (spec R125). -/
def RecordHolds (r : BitVec 512) (e : TrapInfo) (p : Pos) (self : W64) (cseg : Nat) (nested async : Bool) : Prop :=
  bfld r 448 64 = e.aux1.toNat ∧ bfld r 384 64 = e.aux0.toNat ∧ bfld r 320 64 = e.va.toNat ∧ bfld r 288 32 = e.word.toNat
    ∧ bfld r 280 8 = e.flo % 256 ∧ bfld r 272 8 = e.fw % 256 ∧ bfld r 264 8 = e.wi % 256 ∧ bfld r 256 8 = cseg % 256
    ∧ bfld r 248 8 = e.cls % 256 ∧ bfld r 232 16 = e.code % 65536 ∧ bfld r 226 6 = 0 ∧ bfld r 224 2 = p.bwi % 4
    ∧ bfld r 192 32 = p.bpc.toNat ∧ bfld r 186 6 = 0 ∧ bfld r 184 2 = p.nwi % 4 ∧ bfld r 152 32 = p.npc.toNat
    ∧ bfld r 128 24 = 0 ∧ bfld r 64 64 = self.toNat ∧ bfld r 2 62 = 0 ∧ r.getLsbD 1 = nested ∧ r.getLsbD 0 = async

/-- The entry of a strand's own handler (spec R127): the record and the return position, the shadows, and packet 0 of segment 1 next.
The window but for ENTER-pending, the views, the rotating region, the floating-point registers, the operand file and the
last-result file stay. -/
def HandlerEntered (a b : Strand) (e : TrapInfo) (p : Pos) : Prop :=
  RecordHolds b.trap.trec e p a.self a.cseg false false
    ∧ bfld b.trap.ret 0 32 = p.bpc.toNat ∧ bfld b.trap.ret 32 2 = p.bwi % 4
    ∧ b.trap.shadowEp = a.win.ep ∧ b.trap.shadowLoop = a.loop
    ∧ b.win = { a.win with ep := false } ∧ b.loop = { a.loop with act := false }
    ∧ b.id = { a.id with handler := true } ∧ b.cseg = 1 ∧ b.pc = 0 ∧ b.wi = 0
    ∧ Alters [.trap, .win, .loop, .id, .cseg, .pc, .wi, .vpend, .pkt, .sch, .q] a b
    ∧ b.q.accs = a.q.accs ∧ b.q.next = a.q.next ∧ b.q.toks = a.q.toks ∧ b.sch.stop = none

/-- Control registers of a strand with the value each reads (spec R17, R35, R38, R45, R69, R117, R126, R180). -/
def csrTable (s : State) (t : Strand) : List (Nat × Nat) :=
  [ (0x010, t.id.launch.toNat * 2 ^ 48 + (if t.place.cic then 0 else t.place.core.toNat * 2 ^ 45 + t.place.cluster.toNat * 2 ^ 40)
      + t.id.bprio.toNat * 2 ^ 37 + t.id.eprio.toNat * 2 ^ 34 + t.id.stage.toNat * 2 ^ 26 + t.id.gang.toNat * 2 ^ 6 + t.id.idx.toNat),
    (0x011, (if t.place.cic then 2 ^ 28 else 0) + t.id.ngangs.toNat * 2 ^ 7 + t.id.nstr.toNat),
    (0x012, t.sch.waitspin.toNat),
    (0x013, t.win.f % 2048 * 2 ^ 53 + (t.win.hi - t.win.lo) % 2048 * 2 ^ 42 + t.win.base % 2 ^ 32),
    (0x014, t.loop.idx.getD 0 0 % 65536 + t.loop.idx.getD 1 0 % 65536 * 2 ^ 16 + t.loop.idx.getD 2 0 % 65536 * 2 ^ 32
      + t.loop.idx.getD 3 0 % 65536 * 2 ^ 48),
    (0x015, t.loop.idx.getD 4 0 % 65536 + t.loop.idx.getD 5 0 % 65536 * 2 ^ 16 + t.loop.n.toNat * 2 ^ 32
      + (if t.loop.pend then 2 ^ 62 else 0) + (if t.loop.act then 2 ^ 63 else 0)),
    (0x016, s.mem.devid.toNat), (0x017, t.bind.toNat), (0x018, t.views.s.toNat), (0x019, t.views.v.toNat),
    (0x01A, t.views.t.toNat), (0x01B, t.views.a.toNat), (0x020, t.fp.rm.toNat), (0x021, t.fp.flags.toNat),
    (0x022, t.fp.trapen.toNat), (0x030, bfld t.trap.trec 0 64), (0x031, bfld t.trap.trec 64 64), (0x032, bfld t.trap.trec 128 64),
    (0x033, bfld t.trap.trec 192 64), (0x034, bfld t.trap.trec 256 64), (0x035, bfld t.trap.trec 320 64),
    (0x036, bfld t.trap.trec 384 64), (0x037, bfld t.trap.trec 448 64), (0x038, t.trap.ret.toNat) ]

/-- The three write forms by number: the update each makes (spec R142). -/
def csrForms (f : KForm) (old a : W64) : List (Instr × W64) := [(.csrw f, a), (.csrs f, old ||| a), (.csrc f, old &&& ~~~a)]

/-! ### A bundle -/

/-- The state in which the word at hand runs: its index and its word as fetched. -/
def State.atWord (s : State) (p : Sys2Proof.Part) : State := { s with issue := { s.issue with wi := p.wi, word := p.head } }

/-- A word runs by `exec`: at once, or, where it asks that the accesses of its bundle's earlier words perform first, once they have (spec R83, R118,
R195, R353). -/
def RanWord (p : Sys2Proof.Part) (i : Instr) (s v : State) : Prop :=
  (exec i (s.atWord p) = .next v ∧ v.issue.abort ≠ some .own)
    ∨ ∃ w, exec i (s.atWord p) = .next w ∧ w.issue.abort = some .own ∧ exec i (s.performOwn.atWord p) = .next v

/-- Every word of a list ran in order, and none stopped (spec R83, R105). -/
def RanAll : List (Sys2Proof.Part × Instr) → State → State → Prop
  | [], s, t => t = s
  | (p, i) :: r, s, t => ∃ u, RanWord p i s u ∧ u.issue.abort = none ∧ RanAll r u t

/-- Free values drawn aside, the state that follows is the state before. -/
def Unchanged (i : Instr) (s : State) : Prop := exec i s = .next s

end Sys2Proof.Machine
end

