-- ==== Sys2Proof/Certificates/Slice0/Obligations.lean ====
section
/-! DEFINITION. The statements for the provers, in the order of the families of the opcode table. -/

open Sys2Proof Sys2Proof.Machine

/-! ### Scalar forms -/

/-- Two-source short S forms (R83, R104, R106, R107): ADD SUB MUL MULH DIV REM MIN MAX AND OR XOR ANDN ORN SHL SHR SAR ROL ROR CLMUL
CLMULH CMP.eq CMP.ne CMP.lt CMP.ge. With sources that can be read and a destination that can be written, each answers a next state
with the table's result in d and in `ls`, and nothing else changed. -/
def Obligations.ScalarTwoSource : Prop :=
  ∀ (f : SForm) (s s1 : State) (x y : W64) (l : Loc), Op.readAB f.a f.b s = .ok ((x, y), s1) → Dst8 s f.d 16 l →
    ∀ e ∈ scalarTwo f x y, ∃ t, exec e.1 s = .next t ∧ ScalarResult s t l e.2

/-- One-source short S forms (R106): CLZ CTZ POPC BREV BSWAP MOV SEXT ZEXT; `SEXT` and `ZEXT` with a width code below 3. -/
def Obligations.ScalarOneSource : Prop :=
  ∀ (f : SForm) (s s1 : State) (x : W64) (l : Loc), Op.readS f.a 10 s = .ok (x, s1) → Dst8 s f.d 16 l → f.b.toNat < 3 →
    ∀ e ∈ scalarOne f x, ∃ t, exec e.1 s = .next t ∧ ScalarResult s t l e.2

/-- Immediate forms (R109): ADDI ANDI ORI XORI SHLI SHRI MOVI MOVHI. -/
def Obligations.ScalarImmediate : Prop :=
  (∀ (f : IForm) (s s1 : State) (x : W64) (l : Loc), Op.readS f.a 13 s = .ok (x, s1) → Dst8 s f.d 19 l →
    ∀ e ∈ scalarImm f x, ∃ t, exec e.1 s = .next t ∧ ScalarResult s t l e.2)
  ∧ (∀ (d : Spec) (imm : BitVec 19) (s : State) (l : Loc), Dst8 s d 19 l →
    ∃ t, exec (.movi d imm) s = .next t ∧ ScalarResult s t l (int64 imm.toInt))
  ∧ (∀ (f : HForm) (s s1 : State) (x : W64) (l : Loc), Op.readS f.a 13 s = .ok (x, s1) → Dst8 s f.d 19 l →
    ∃ t, exec (.movhi f) s = .next t
      ∧ ScalarResult s t l ((x &&& ~~~(lo64 (0xFFFF * 2 ^ (16 * f.sh.toNat)))) ||| lo64 (f.imm.toNat * 2 ^ (16 * f.sh.toNat))))

/-- Long S forms (R108): BFX BFI SEL LEA. -/
def Obligations.ScalarLong : Prop :=
  (∀ (f : LForm) (s s1 : State) (x : W64) (l : Loc), Op.readS f.a 10 s = .ok (x, s1) → Dst8 s f.d 16 l →
    let pos := bfld f.mod 16 6
    let len := bfld f.mod 9 7
    1 ≤ len → pos + len ≤ 64 →
    let v : Nat := x.toNat / 2 ^ pos % 2 ^ len
    ∃ t, exec (.bfx f) s = .next t
      ∧ ScalarResult s t l (if f.mod.getLsbD 8 ∧ v.testBit (len - 1) then int64 ((v : Int) - 2 ^ len) else lo64 v))
  ∧ (∀ (f : LForm) (s s1 s2 : State) (d x : W64) (l : Loc), Op.readS f.d 16 s = .ok (d, s1) → Op.readS f.a 10 s1 = .ok (x, s2) →
    Dst8 s f.d 16 l →
    let pos := bfld f.mod 16 6
    let len := bfld f.mod 9 7
    let mask := lo64 ((2 ^ len - 1) * 2 ^ pos)
    ∃ t, exec (.bfi f) s = .next t ∧ ScalarResult s t l ((d &&& ~~~mask) ||| (lo64 (x.toNat * 2 ^ pos) &&& mask)))
  ∧ (∀ (f : LForm) (s s1 s2 : State) (x y c : W64) (l : Loc), Op.readAB f.a f.b s = .ok ((x, y), s1) →
    Op.readS f.c 54 s1 = .ok (c, s2) → Dst8 s f.d 16 l →
    ∃ t, exec (.sel f) s = .next t ∧ ScalarResult s t l (if c ≠ 0 then x else y))
  ∧ (∀ (f : LForm) (s s1 : State) (x y : W64) (l : Loc), Op.readAB f.a f.b s = .ok ((x, y), s1) → Dst8 s f.d 16 l →
    ∃ t, exec (.lea f) s = .next t ∧ ScalarResult s t l
      (int64 (x.toInt + y.toInt * 2 ^ bfld f.mod 19 3 + (f.mod.extractLsb' 0 19).toInt)))

/-- A source operand of a 64-bit form (R45, R46, R48, R54, R104): a name below 48 reads the eight bytes of the frame at `vw.s` + 8i, or traps
`VIEW_RANGE` past the frame, which names the specifier's field (log entry 46); 48 to 55 read an operand file entry; 56 `ls`, 57 `lv`, whose value
is free while a V word's is in flight (log entry 10), 58 `lm`, 59 `lx`, 60 zero, 61 ones, 62 zero. A pending place, and `lm` or `lx` before
its result, stall the bundle. -/
def Obligations.SourceOperands : Prop :=
  ∀ (f : Spec) (lo : Nat) (s : State),
    (f.toNat < 48 → ∀ off, off = s.view.views.s.toNat + 8 * f.toNat →
      (off + 8 ≤ s.view.win.f * 256 →
        let l : Loc := .reg (s.view.unit (off / 256)) (off % 256) 8
        (s.view.pendsAt l = true → Stops (Op.readS f lo) s .stall)
        ∧ (s.view.pendsAt l = false → s.view.flying s.now l = 0 →
          Op.readS f lo s = .ok (lo64 (bfld (s.view.readUnit (s.view.unit (off / 256))) (8 * (off % 256)) 64), s)))
      ∧ (s.view.win.f * 256 < off + 8 → Raises (Op.readS f lo) s { cls := 0x05, code := 0x03, flo := lo, fw := 6 }))
    ∧ (48 ≤ f.toNat → f.toNat < 56 →
        let l : Loc := .ofile (f.toNat - 48) 256
        (s.view.pendsAt l = true → Stops (Op.readS f lo) s .stall)
        ∧ (s.view.pendsAt l = false → s.view.flying s.now l = 0 → Op.readS f lo s = .ok (lo64 (s.view.entry (f.toNat - 48)).toNat, s)))
    ∧ (f.toNat = 56 → Op.readS f lo s = .ok (s.view.files.ls, s))
    ∧ (f.toNat = 57 → (s.view.lvFlying s.now = false → Op.readS f lo s = .ok (s.view.files.lv.setWidth 64, s))
        ∧ (s.view.lvFlying s.now = true → ∃ v, Op.readS f lo s = .ok (v, { s with free := s.free + 1 })))
    ∧ (f.toNat = 58 → (s.view.files.lmWait = none → Op.readS f lo s = .ok (s.view.files.lm.setWidth 64, s))
        ∧ (s.view.files.lmWait ≠ none → Stops (Op.readS f lo) s .stall))
    ∧ (f.toNat = 59 → (s.view.files.lxWait = none → Op.readS f lo s = .ok (s.view.files.lx, s))
        ∧ (s.view.files.lxWait ≠ none → Stops (Op.readS f lo) s .stall))
    ∧ (f.toNat = 60 → Op.readS f lo s = .ok (0, s))
    ∧ (f.toNat = 61 → Op.readS f lo s = .ok (BitVec.allOnes 64, s))
    ∧ (f.toNat = 62 → Op.readS f lo s = .ok (0, s))

/-! ### Control -/

/-- `NOP` (R122): it has no effect. -/
def Obligations.NopNoEffect : Prop :=
  decodeTableWord 32 0x6F000000 = some .nop ∧ encode .nop = .short 0x6F000000 ∧ pipeOf 6 = pipeOf 0 ∧ ∀ s : State, exec .nop s = .next s

/-- Branches (R110, R113, R116): BR BRC BRV LOOP, and the word of `LOOP`. -/
def Obligations.Branches : Prop :=
  (∀ (off : BitVec 24) (s : State), ∃ t, exec (.br off) s = .next t ∧ Jump s t (s.issue.pos.bpc + off.signExtend 32))
  ∧ (∀ (f : CForm) (s s1 : State) (a : W64), Op.readS f.a 16 s = .ok (a, s1) →
    ∃ t, exec (.brc f) s = .next t
      ∧ (BrcHolds f.cc a → Jump s t (s.issue.pos.bpc + f.off.signExtend 32)) ∧ (¬BrcHolds f.cc a → AllQuiet s t))
  ∧ (∀ (f : CForm) (s s1 : State) (a : Vec), Op.readV f.a 16 (vpack 8 (List.range 256)) s = .ok (a, s1) →
    ∃ t, exec (.brv f) s = .next t
      ∧ (BrvHolds f.cc a → Jump s t (s.issue.pos.bpc + f.off.signExtend 32)) ∧ (¬BrvHolds f.cc a → AllQuiet s t))
  ∧ (∀ (f : CForm) (s s1 : State) (a : W64) (l : Loc), Op.readS f.a 16 s = .ok (a, s1) → Dst8 s f.a 16 l →
    ∃ t, exec (.loop f) s = .next t ∧ Delivers [.issue] [.loop] 0 s t l (a - 1).toNat ∧ t.me.files.ls = a - 1
      ∧ (a ≠ 1 → t.issue = { s.issue with tgt := some (s.issue.pos.bpc + f.off.signExtend 32) }
          ∧ LoopAfter s.me.loop t.me.loop (s.issue.pos.bpc + f.off.signExtend 32))
      ∧ (a = 1 → t.issue = s.issue ∧ t.me.loop = s.me.loop))
  ∧ (∀ f : CForm, (Instr.loop f).wf = true → f.cc = 0 ∧ encode (.loop f) = .short (0#1 ++ 6#3 ++ 7#4 ++ 0#2 ++ f.a ++ f.pb ++ f.off))

/-- Calls (R39, R43, R112, R116): CALL CALLI, outside a `LOOPN` nest, with no rotating region, and the link word not pending. In a nest both
trap `LOOP_BODY`, `CALLI` before it reads its source (log entry 47); a rotating region traps `ROT_ACTIVE`. -/
def Obligations.Calls : Prop :=
  ∀ s : State,
    (s.view.loop.act = false → s.view.rot.size = 0 → s.view.pendsAt (.reg (s.view.rawUnit (s.view.win.f - 1)) 248 8) = false →
      (∀ off : BitVec 24, ∃ t, exec (.call off) s = .next t ∧ Called s t (s.issue.pos.bpc + off.signExtend 32))
      ∧ (∀ (a : Spec) (pb : BitVec 2) (s1 : State) (x : W64), Op.readS a 16 s = .ok (x, s1) →
        ∃ t, exec (.calli a pb) s = .next t ∧ Called s t (BitVec.ofNat 32 x.toNat)))
    ∧ (s.view.loop.act = true → (∀ off : BitVec 24, TrapsWith (.call off) s { cls := 0x06, code := 0x03 })
      ∧ ∀ (a : Spec) (pb : BitVec 2), TrapsWith (.calli a pb) s { cls := 0x06, code := 0x03 })
    ∧ (s.view.loop.act = false → s.view.rot.size ≠ 0 → ∀ off : BitVec 24, TrapsWith (.call off) s { cls := 0x05, code := 0x06 })

/-- `ENTER` and `RET` (R40, R41, R112). `ENTER` of G units, pending, with 4 ≤ G ≤ wsize: the spills and the fresh units are made, then the
frame is G units and ENTER is no longer pending. `RET` through a link word that names a frame of C units: the refills are made, then
the caller's window is in force and the bundle goes on at the packet the link names. -/
def Obligations.Frames : Prop :=
  (∀ (g : BitVec 11) (s s1 s2 : State), s.view.loop.act = false → s.view.win.ep = true → 4 ≤ g.toNat → g.toNat ≤ s.view.fr.wsize →
    Op.spills (s.view.win.base + g.toNat - s.view.win.lo - s.view.fr.wsize) s.view.win.lo s = .ok ((), s1) →
    Op.freshUnits (s.view.win.base + g.toNat - s.view.win.hi) s.view.win.hi s1 = .ok ((), s2) →
    ∃ t, exec (.enter g) s = .next t ∧ OthersKept s2 t ∧ Changes [.strands] s2 t ∧ Alters [.win] s2.me t.me
      ∧ t.me.win = { s2.me.win with
          f := g.toNat, hi := s2.me.win.base + g.toNat, ep := false
          lo := s2.me.win.lo + (s.view.win.base + g.toNat - s.view.win.lo - s.view.fr.wsize) })
  ∧ (∀ (s s1 s2 : State) (link : Nat), s.view.loop.act = false →
    Op.readLoc (.reg (s.view.unit 3) 248 8) s = .ok (link, s1) →
    let c := nfld link 32 11
    4 ≤ c → c ≤ s.view.fr.wsize → c - 4 ≤ s.view.win.base → nfld link 43 21 = 0 → s.view.win.lost = false →
    let base := s.view.win.base + 4 - c
    Op.refills (min (s.view.win.lo - base) c) base s1 = .ok (none, s2) →
    ∃ t, exec .ret s = .next t ∧ OthersKept s2 t ∧ Changes [.strands, .issue] s2 t ∧ Alters [.win] s2.me t.me
      ∧ t.me.win = { s2.me.win with base := base, f := c, lo := min s2.me.win.lo base, hi := base + c }
      ∧ t.issue = { s2.issue with tgt := some (BitVec.ofNat 32 link) })

/-- `LOOPN` (R115, R116) with a descriptor read at issue: a nest of no iterations goes on after the body; else the nest runs, its indices
zero, from the packet after. -/
def Obligations.LoopNest : Prop :=
  ∀ (a : Spec) (pb : BitVec 2) (n : BitVec 8) (s s1 s2 s3 : State) (va : W64) (v : Nat),
    s.view.loop.act = false → Op.readS a 16 s = .ok (va, s1) → Op.hint false pb [(false, a)] s1 = .ok ((), s2) →
    Op.loadNow (lineVa va) 64 s2 = .ok (.ok v, s3) →
    let d : Line := BitVec.ofNat 512 v
    nestOk d = true → nestReg (bfld d 8 6) = true → nestReg (bfld d 16 6) = true →
    (nestCount d = 0 → ∃ t, exec (.loopn a pb n) s = .next t ∧ t.me.loop = { s3.me.loop with n := n }
      ∧ t.issue.tgt = some (s3.issue.pos.bpc + n.setWidth 32 + 1) ∧ OthersKept s3 t ∧ Changes [.strands, .issue] s3 t
      ∧ Alters [.loop] s3.me t.me)
    ∧ (∀ b0 b1 s4 s5 s6, nestCount d ≠ 0 → s4 = s3.setMe { s3.me with loop := { s3.me.loop with n := n } } →
      Op.streamBase (bfld d 8 6) s4 = .ok (b0, s5) → Op.streamBase (bfld d 16 6) s5 = .ok (b1, s6) →
      ∃ t, exec (.loopn a pb n) s = .next t
        ∧ t.me.loop = { act := true, pend := false, n := n, idx := [0, 0, 0, 0, 0, 0], desc := d, base0 := b0, base1 := b1,
                        first := s6.issue.pos.bpc + 1, last := s6.issue.pos.bpc + n.setWidth 32 }
        ∧ t.issue.tgt = some (s6.issue.pos.bpc + 1) ∧ OthersKept s6 t ∧ Changes [.strands, .issue] s6 t ∧ Alters [.loop] s6.me t.me)

/-- `SUSPEND`, `YIELD`, `STAGE` (R28, R119, R121, R129): the strand stops at the end of the bundle, to suspend with reason 1 or 2, or to enter the
next stage pool; `YIELD` only where a waiting unit could take its place, at the priority of its issue (log entry 87); `STAGE` in a nest traps
`LOOP_BODY` whatever its stage (log entry 47). What the stop does once the strand's results have landed (R18 to R20, R34, R56, R131 to R133,
R136): the save frame is written, the record is left, the slot is free, and the record runs again where its reason is over; a page-in of the
save frame leaves the strand in its slot; a frame that cannot be written ends the strand (log entry 84). In a partition that is torn down the
record is then gone (R339). `PHINT` under a pre-emption asks for reason 8. The model's choices besides: what a line of the scratchpad holds where only some
of its words are saved, and that a failing check is carried over (log entry 82), what the record and the context entry keep (16), where the entry goes
(17), and which earlier stores the writes wait for (102). -/
def Obligations.GivingUpTheSlot : Prop :=
  (∀ (s : State) (sid : Nat) (t : Strand), s.strand? sid = some t → t.pending = false → t.sch.saving = false → s.engineBusy sid = false →
    (s.part t.id.part).st ≠ 2 →
    (∀ (r : Nat) (full : Bool), t.sch.stop = some (.suspend r full) → s.storesAhead sid t = true → s.settle sid = s)
    ∧ (∀ (r : Nat) (full : Bool), t.sch.stop = some (.suspend r full) → s.storesAhead sid t = false →
      (∀ u, s.saveStrand sid t r full = .ok u →
        s.settle sid = (if t.wakes r then u.makeRunnable sid else u)
        ∧ (∃ m, u.strand? sid = some m ∧ Suspended t m r full ∧ SMap.get 0 u.chuck.store sid = m.ctxEntry
          ∧ (t.win.lo = t.win.base → (∀ x ∈ t.saveImage full, s.isLocal ((t.fr.save.toNat + x.1) % 2 ^ 64) = true) →
            ∃ v, FrameWritten t (t.saveImage full) s v ∧ u.mem = (v.storeEntry sid m.ctxEntry).mem))
        ∧ (∀ i, i ≠ sid → u.strand? i = s.strand? i))
      ∧ (∀ u, s.saveStrand sid t r full = .wait u → s.settle sid = u.onStrand sid fun x => { x with sch := { x.sch with saving := true } })
      ∧ ∀ e u, s.saveStrand sid t r full = .fail e u → s.settle sid = u.endStrand sid t (t.endedAtSave e))
    ∧ (∀ u, t.sch.stop = some .stage → t.q.accs = [] → s.heldIds sid = [] → s.saveStrand sid t 9 false = .ok u →
      s.settle sid = (((u.onStrand sid fun x => { x with id := { x.id with stage := t.id.stage + 1, gang := 0, idx := 0 } }).leaveGang sid
        t.fp.flags).toPool sid t.id.launch.toNat (t.id.stage + 1).toNat).afterStrand t.id.launch.toNat))
  ∧ (∀ (s : State) (sid : Nat) (t : Strand) (r : Nat) (full : Bool) (u : State), s.strand? sid = some t → t.pending = false → t.sch.saving = false →
    s.engineBusy sid = false → (s.part t.id.part).st = 2 → t.sch.stop = some (.suspend r full) → s.storesAhead sid t = false →
    s.saveStrand sid t r full = .ok u → t.q.accs = [] → (s.settle sid).strand? sid = none)
  ∧ (∀ (s : State) (sid : Nat) (e : BitVec 131072), let base := bfld s.chuck.ctx 16 48 * 65536
    let t := s.storeEntry sid e
    Changes [.chuck, .mem] s t ∧ SMap.get 0 t.chuck.store sid = e ∧ (∀ k, k ≠ sid → SMap.get 0 t.chuck.store k = SMap.get 0 s.chuck.store k)
    ∧ (base = 0 → t.mem = s.mem)
    ∧ (base ≠ 0 → ∀ g w, s.translate Config.ctxPasid ((base + 16384 * (Config.ctxPlace sid % s.entries)) % 2 ^ 64) 16384 .write = .ok ([g], w) →
      SegGood w.mem g 16384 → BytesPut w.mem t.mem g.pa 16384 e.toNat))
  ∧ (∀ (t : Strand) (full : Bool) (x : Nat × Nat × Nat × Bool), x ∈ t.saveImage full ↔
      x = (0, 1024, t.controlArea, true)
      ∨ (∃ k, t.Saves full k ∧ x = (1024 + 256 * k, 256, (t.regUnit (t.rawUnit k)).toNat, true))
      ∨ ∃ l, l < 16 * t.fr.spad ∧ (∃ w, 8 * l ≤ w ∧ w < 8 * l + 8 ∧ t.savesWord full w (t.sword w) = true)
          ∧ x = (1024 + 256 * t.fr.wsize + 64 * l, 64, t.spadLine l, !(t.scrBad.contains l)))
  ∧ (∀ t : Strand, t.win.f < 2048 →
      nfld t.controlArea 0 32 = t.win.base % 2 ^ 32 ∧ nfld t.controlArea 32 11 = t.win.f ∧ t.controlArea.testBit 43 = t.win.ep
      ∧ nfld t.controlArea 44 2 = t.wi % 4 ∧ nfld t.controlArea 64 64 = t.views.s.toNat ∧ nfld t.controlArea 320 64 = t.fp.rm.toNat
      ∧ nfld t.controlArea 512 64 = t.sch.phC.toNat ∧ nfld t.controlArea 704 64 = t.sch.waitspin.toNat)
  ∧ (∀ (s : State) (sid : Nat) (t : Strand), s.strand? sid = some t → t.id.state = 3 → t.sch.preempt = false →
      (s.makeRunnable sid).strand? sid = some { t with id := { t.id with state := 4 } }
      ∧ (s.makeRunnable sid).chuck.ready = s.chuck.ready ++ [{ sids := [sid], bound := true }])
  ∧ (∀ (s : State) (is : List (Sys2Proof.Part × Instr)) (next : Nat),
      let u := (s.setMe ((s.me.flow s.issue next).issued (s.cycle s.core))).tick s.core
      u.me.sch.preempt = true → u.me.sch.stop = none → (∃ e ∈ is, isPhint e.2 = true) →
      s.afterBundle is next
        = { (u.onStrand s.cur fun t => { t with sch := { t.sch with stop := some (.suspend 8 false) } }).settle s.cur with issue := {} })
  ∧ ∀ s : State,
    (∃ t, exec .suspend s = .next t ∧ AsksStop s t (.suspend 1 false))
    ∧ (s.yieldsTo s.view = true → ∃ t, exec .yield s = .next t ∧ AsksStop s t (.suspend 2 false))
    ∧ (s.yieldsTo s.view = false → exec .yield s = .next s)
    ∧ (s.view.loop.act = false → s.view.id.stage ≠ 255 → s.view.trap.pending = [] →
        ∃ t, exec .stage s = .next t ∧ AsksStop s t .stage)
    ∧ (s.view.loop.act = false → s.view.id.stage = 255 → TrapsWith .stage s { cls := 0x06, code := 0x01 })
    ∧ (s.view.loop.act = true → TrapsWith .stage s { cls := 0x06, code := 0x03 })

/-- `TRIG` and `EXIT` (R24, R29, R120, R121, R128): a release of the strand's earlier accesses stands in its queues; a second `TRIG` has no
effect, and an engine trap pending is delivered at `EXIT` (R129). What their release does at the strand's node once it has performed: a node
whose strands have all triggered or exited is TRIGGERED and releases its successors, each once; one whose strands have all exited is DONE,
after the add that its LPB asks for; the last release makes a CREATED node READY, and one that comes later is counted. -/
def Obligations.TriggerAndExit : Prop :=
  (∀ s : State,
    (s.view.id.triggered = false → ∃ t, exec .trig s = .next t ∧ Sets [.id, .q, .files] s t
      ∧ t.me.id = { s.me.id with triggered := true } ∧ Enters s t .both .trig none false 3 true)
    ∧ (s.view.id.triggered = true → exec .trig s = .next s)
    ∧ (s.view.trap.pending = [] → ∃ t, exec .exit s = .next t ∧ Sets [.q, .files] s t ∧ Enters s t .both .exit none false 3 true)
    ∧ (∀ e r, s.view.trap.pending = e :: r → TrapsWith .exit s e.info))
  ∧ (∀ (s : State) (sid : Nat) (t : Strand), s.strand? sid = some t →
      s.trigDone sid = (s.setStrand sid { t with id := { t.id with triggered := true, trigDone := true } }).nodeCheck t.id.launch.toNat
      ∧ (t.trap.pending = [] → s.exitDone sid = (((s.setStrand sid { t with id := { t.id with state := 7 } }).keepIdent sid t.id).leaveGang sid
          t.fp.flags).afterStrand t.id.launch.toNat))
  ∧ (∀ (s : State) (n : Nat), (s.node n).kind = .launch →
      let v := s.node n
      let fired := (s.setNode n { v with st := .triggered }).release v.succ
      (v.st ≠ .active → v.st ≠ .triggered → s.nodeCheck n = s)
      ∧ (v.st = .active → s.canTrigger n = false → s.nodeCheck n = s)
      ∧ (v.st = .active → s.canTrigger n = true → fired.canComplete n = false → s.nodeCheck n = fired)
      ∧ (v.st = .triggered → s.canComplete n = false → s.nodeCheck n = s)
      ∧ (v.st = .active → s.canTrigger n = true → fired.canComplete n = true → (fired.node n).st = .triggered →
        Completes fired (s.nodeCheck n) n)
      ∧ (v.st = .triggered → s.canComplete n = true → Completes s (s.nodeCheck n) n))
  ∧ (∀ (s : State) (n : Nat), s.canTrigger n = true →
      (s.node n).mat = bfld (s.node n).lpb 32 32 ∧ (s.node n).stuckU = 0
      ∧ ∀ e ∈ s.strands, e.2.id.launch.toNat = n → e.2.id.state ≠ 7 → e.2.id.trigDone = true ∨ e.2.id.standIn = true ∧ e.2.id.triggered = true)
  ∧ (∀ (s : State) (n : Nat), s.canComplete n = true →
      (s.node n).mat = bfld (s.node n).lpb 32 32 ∧ (s.node n).stuck = 0 ∧ ∀ e ∈ s.strands, e.2.id.launch.toNat = n → e.2.id.state = 7)
  ∧ ∀ (s : State) (n : Nat),
      let v := s.node n
      let one := s.setNode n { v with ctr := v.ctr - 1 }
      (v.st = .created → v.ctr ≠ 1 → s.release [n] = one)
      ∧ (v.st = .created → v.ctr = 1 → v.kind = .launch → bfld v.lpb 32 32 ≠ 0 → ∃ t, s.release [n] = t ∧ Changes [.chuck] s t
          ∧ t.node n = { v with ctr := 0, st := .ready } ∧ t.chuck.waiting = s.chuck.waiting ++ [.gang n (bfld v.lpb 8 3)]
          ∧ ∀ k, k ≠ n → t.node k = s.node k)
      ∧ (v.st ≠ .created → v.st ≠ .free → s.release [n]
          = one.setPart v.part { one.part v.part with
              gerr := if (s.part v.part).gerr = BitVec.allOnes 32 then BitVec.allOnes 32 else (s.part v.part).gerr + 1 })

/-- `SPAWN` (R22, R27, R120, R135) with operands in range and a context-store entry free for its child, or granted while it waited: one more
strand, the child, whose record is as R120 gives it; the argument bytes are the last four units of the frame as read; the child waits for
the spawner's accesses where one has not performed or the fabric port holds one. Without an entry the spawner suspends; granted one, its
bundle issues again and the child takes the operands and argument bytes read then (log entry 85); an operand out of range traps `SPAWN_ARG`. -/
def Obligations.Spawn : Prop :=
  ∀ (a b : Spec) (pb : BitVec 2) (s s1 s2 s3 s4 : State) (x y : W64) (args : SMap Vec),
    Op.readS a 16 s = .ok (x, s1) → Op.readS b 10 s1 = .ok (y, s2) → Op.hint false pb [(false, a), (false, b)] s2 = .ok ((), s3) →
    let good := bfld x 43 21 = 0 ∧ bfld x 40 3 ≤ s.view.id.bprio.toNat ∧ s.view.id.stage.toNat ≤ bfld x 32 8 ∧ bfld y 0 8 = 0
    let room := s.entriesFor 1 (bfld x 40 3) = true ∨ s.view.sch.grant = true
    (¬good → TrapsWith (.spawn a b pb) s { cls := 0x06, code := 0x02 })
    ∧ (good → Op.argUnits 4 0 s3 = .ok (args, s4) → ¬room →
      exec (.spawn a b pb) s = .next (s.walks.applyStop (.poolFull (bfld x 40 3))))
    ∧ (good → Op.argUnits 4 0 s3 = .ok (args, s4) → room → s4.strand? s.nextSid = none → s.nextSid ≠ s.cur →
    ∃ t, exec (.spawn a b pb) s = .next t ∧ t.nextSid = s.nextSid + 1 ∧ Changes [.free, .cores, .strands, .nextSid, .chuck] s t
      ∧ ∃ c, t.strand? s.nextSid = some c
        ∧ c.id.launch = s.view.id.launch ∧ c.id.cls = s.view.id.cls ∧ c.id.stage.toNat = bfld x 32 8 ∧ c.id.bprio.toNat = bfld x 40 3
        ∧ c.id.eprio = c.id.bprio ∧ c.id.spawned = true ∧ c.id.triggered = s.view.id.triggered
        ∧ c.pc.toNat = bfld x 0 32 ∧ c.cseg = 0 ∧ c.fr.wsize = s.view.fr.wsize ∧ c.fr.save = y
        ∧ c.fr.spill.toNat = (y.toNat + bfld (s.node s.view.id.launch.toNat).lpb 256 32 * 256) % 2 ^ 64
        ∧ c.regs = args ∧ c.win.f = bfld (s.node s.view.id.launch.toNat).lpb 160 11 ∧ c.win.ep = true
        ∧ c.sch.gate = if s.me.q.accs = [] ∧ s.heldIds s.cur = [] then none else some (s.cur, s.me.q.next))

/-! ### Traps and system forms -/

/-- `TRAP` (R124, R125, R127, R140): a strand outside its handler, with a handler VA and no result outstanding, enters its handler with
class `USER`, the code, and its own bundle as the return position. -/
def Obligations.TrapInstruction : Prop :=
  ∀ (code : BitVec 16) (s : State) (m : Strand), s.strand? s.cur = some m → m.id.handler = false → m.fr.handler ≠ 0 →
    m.pending = false → m.sch.saving = false →
    ∃ t, exec (.trap code) s = .next t ∧ OthersKept s t ∧ Changes [.strands, .issue] s.walks t
      ∧ HandlerEntered m t.me { cls := 0x0B, code := code.toNat, wi := s.issue.wi, word := s.issue.word } s.issue.pos

/-- The delivery of a trap (R124, R127, R128): outside a handler, with a handler VA, a class that is not ending enters the handler. -/
def Obligations.HandlerEntry : Prop :=
  ∀ (s : State) (sid : Nat) (m : Strand) (e : TrapInfo) (p : Pos), m.id.handler = false → m.fr.handler ≠ 0 → e.cls ≠ 0x09 → e.cls ≠ 0x0F →
    ∃ b, s.deliverTrap sid m e p = s.setStrand sid b ∧ HandlerEntered m b e p

/-- `RFT` (R144): in an in-strand handler ENTER-pending and the loop state are restored, the code segment is 0, and flow goes on at
`cr.trap.ret`; elsewhere the strand asks for the ending trap `NO_RETURN` (R148), after the bundle, whose other words take effect (log
entry 49). -/
def Obligations.ReturnFromTrap : Prop :=
  ∀ s : State,
    (s.view.id.handler = true → s.view.id.standIn = false →
      ∃ t, exec .rft s = .next t ∧ OnSelf [.issue] s t ∧ Alters [.win, .loop, .cseg, .id] s.me t.me
        ∧ t.me.win = { s.me.win with ep := s.view.trap.shadowEp } ∧ t.me.loop = s.view.trap.shadowLoop ∧ t.me.cseg = 0
        ∧ t.me.id = { s.me.id with handler := false }
        ∧ t.issue = { s.issue with tgt := some (s.view.trap.ret.extractLsb' 0 32), twi := bfld s.view.trap.ret 32 2 }
        ∧ ∀ next, t.me.flow t.issue next
            = { t.me with pc := s.view.trap.ret.extractLsb' 0 32, wi := bfld s.view.trap.ret 32 2, pkt := none })
    ∧ (s.view.id.handler = false ∨ s.view.id.standIn = true →
      ∃ t, exec .rft s = .next t
        ∧ AsksStop s t (.trap { cls := 0x0F, code := 0x01, wi := s.issue.wi, word := s.issue.word } s.issue.pos))

/-- `TRAPFENCE` (R129, R140), once every V word has landed: `ARITH` with the enabled flags, the flags in aux0, where one is set; else the first engine
trap pending; else no effect. -/
def Obligations.TrapFence : Prop :=
  ∀ s : State, s.view.landed s.now = true →
    (s.view.fp.flags &&& s.view.fp.trapen = 0 → s.view.trap.pending = [] → Unchanged .trapfence s)
    ∧ (s.view.fp.flags &&& s.view.fp.trapen ≠ 0 → TrapsWith .trapfence s
        { cls := 0x0A, code := (s.view.fp.flags &&& s.view.fp.trapen).toNat, aux0 := BitVec.ofNat 64 s.view.fp.flags.toNat })
    ∧ (∀ e r, s.view.fp.flags &&& s.view.fp.trapen = 0 → s.view.trap.pending = e :: r → TrapsWith .trapfence s e.info)

/-- `CSRR` (R142): the register as it stands at issue into d and `ls`; what the registers of the strand read (R17, R35, R38, R45, R69,
R117, R126, R180, R297). -/
def Obligations.ControlRegisterReads : Prop :=
  ∀ (f : KForm) (s : State) (l : Loc), (f.csr = 0x021 → s.view.landed s.now = true) → Dst8 s f.r 18 l →
    (∃ t, exec (.csrr f) s = .next t ∧ ScalarResult s t l (s.csr s.view f.csr.toNat))
    ∧ ∀ e ∈ csrTable s s.view, f.csr.toNat = e.1 → ∃ t, exec (.csrr f) s = .next t ∧ ScalarResult s t l (lo64 e.2)

/-- `CSRW`, `CSRS`, `CSRC` (R69, R72, R139, R142) on a register of the strand that programs write: the register reads the update, of
`cr.fp.flags` with the flags that earlier words of the bundle raised; the other registers of the strand stay; a value with a reserved bit or
a reserved code traps `ILLEGAL_FIELD`, which names the source (log entry 45). -/
def Obligations.ControlRegisterWrites : Prop :=
  ∀ (f : KForm) (s s1 : State) (a : W64), csrOpen f.csr.toNat = true → Op.readS f.r 18 s = .ok (a, s1) →
    (f.csr = 0x021 → s.view.landed s.now = true) →
    ∀ e ∈ csrForms f (s.csr (if f.csr = 0x021 then s.me else s.view) f.csr.toNat) a,
      (csrBadValue f.csr.toNat e.2 = false → ∃ t, exec e.1 s = .next t ∧ Sets [.sch, .views, .fp, .trap] s t
        ∧ t.csr t.me f.csr.toNat = e.2 ∧ ∀ n, n < 0x040 → n ≠ f.csr.toNat → t.csr t.me n = s.csr s.me n)
      ∧ (csrBadValue f.csr.toNat e.2 = true → TrapsWith e.1 s { cls := 0x04, code := 0, flo := 18, fw := 6, va := a })

/-- `PHINT` and `VIEW` (R45, R139, R141, R143): three sources in bounds set the liveness in force, and the first out of bounds traps
`ILLEGAL_FIELD` and changes nothing (log entry 38 says which, log entry 45 the field named); the named view register takes the base, and a base
that is not a multiple of 8 for `vw.s`, of 256 for the others, traps, naming the base field with no value (log entry 45). -/
def Obligations.LivenessHintAndViews : Prop :=
  (∀ (f : RForm) (s s1 s2 s3 : State) (a b c : W64), Op.readS f.a 18 s = .ok (a, s1) → Op.readS f.b 12 s1 = .ok (b, s2) →
    Op.readS f.c 6 s2 = .ok (c, s3) →
    let good (r : W64) : Prop := bfld r 0 20 % 64 = 0 ∧ bfld r 20 20 % 64 = 0
      ∧ bfld r 40 24 = 0 ∧ bfld r 0 20 + bfld r 20 20 ≤ s.view.fr.spad * 1024
    (a.toNat < 2 ^ 32 → good b → good c →
      ∃ t, exec (.phint f) s = .next t ∧ Sets [.sch] s t ∧ t.me.sch = { s.me.sch with phA := a, phB := b, phC := c })
    ∧ (2 ^ 32 ≤ a.toNat → TrapsWith (.phint f) s (fieldTrap 18 a))
    ∧ (a.toNat < 2 ^ 32 → ¬good b → TrapsWith (.phint f) s (fieldTrap 12 b))
    ∧ (a.toNat < 2 ^ 32 → good b → ¬good c → TrapsWith (.phint f) s (fieldTrap 6 c)))
  ∧ ∀ (v : BitVec 2) (base : BitVec 18) (s : State),
    let ok := if v = 0 then base.toNat % 8 = 0 else base.toNat % 256 = 0
    (ok → ∃ t, exec (.view v base) s = .next t ∧ Sets [.views] s t
      ∧ t.me.views = { s.me.views with
          s := if v = 0 then base else s.me.views.s, v := if v = 1 then base else s.me.views.v
          t := if v = 2 then base else s.me.views.t, a := if v = 3 then base else s.me.views.a })
    ∧ (¬ok → TrapsWith (.view v base) s { cls := 0x04, code := 0, flo := 0, fw := 18 })

/-- `ROTCFG` and `ROTATE` (R49, R50, R139, R143): the region configured, its position 0 and no unit dead, units dead before reading zero; a
rotation by k moves the unit named d to d + k, and none but the position and the dead units change. Values out of range trap
`ILLEGAL_FIELD`: of `ROTCFG` the first in order (log entry 38), with the source named, b where base and size together leave the frame; of `ROTATE`
the field k with no value (log entry 45). -/
def Obligations.RotatingRegion : Prop :=
  (∀ (f : RForm) (s s1 s2 s3 : State) (a b c : W64), Op.readS f.a 18 s = .ok (a, s1) → Op.readS f.b 12 s1 = .ok (b, s2) →
    Op.readS f.c 6 s2 = .ok (c, s3) →
    (1024 ≤ a.toNat → TrapsWith (.rotcfg f) s (fieldTrap 18 a))
    ∧ (a.toNat < 1024 → 1024 ≤ b.toNat → TrapsWith (.rotcfg f) s (fieldTrap 12 b))
    ∧ (a.toNat < 1024 → b.toNat < 1024 → 1024 ≤ c.toNat ∨ b.toNat < c.toNat → TrapsWith (.rotcfg f) s (fieldTrap 6 c))
    ∧ (a.toNat < 1024 → b.toNat < 1024 → c.toNat ≤ b.toNat → b ≠ 0 → s.view.win.f < a.toNat + b.toNat →
      TrapsWith (.rotcfg f) s (fieldTrap 12 b))
    ∧ (a.toNat < 1024 → b.toNat < 1024 → c.toNat ≤ b.toNat → b = 0 ∨ a.toNat + b.toNat ≤ s.view.win.f →
    ∃ t, exec (.rotcfg f) s = .next t ∧ Sets [.rot, .regs] s t
      ∧ t.me.rot = { base := a.toNat, size := b.toNat, depth := c.toNat, pos := 0, dead := [] }
      ∧ (∀ u, u < s.me.fr.wsize → s.me.deadUnit (s.me.winUnit u) = true → t.me.readUnit u = 0)
      ∧ ∀ u, (∀ o, o ∈ s.me.rot.dead → u ≠ s.me.rawUnit (s.me.rot.base + o)) → t.me.regUnit u = s.me.regUnit u))
  ∧ (∀ (k : BitVec 11) (s : State), s.view.rot.size = 0 → Unchanged (.rotate k) s)
  ∧ (∀ (k : BitVec 11) (s : State), s.view.rot.size = s.me.rot.size → 1 ≤ k.toNat → k.toNat ≤ s.me.rot.size →
    ∃ t, exec (.rotate k) s = .next t ∧ OnSelf [] s t ∧ Alters [.rot] s.me t.me
      ∧ t.me.rot.base = s.me.rot.base ∧ t.me.rot.size = s.me.rot.size ∧ t.me.rot.depth = s.me.rot.depth
      ∧ (∀ d, d < s.me.rot.size →
          t.me.rot.map (s.me.rot.base + (d + k.toNat) % s.me.rot.size) = s.me.rot.map (s.me.rot.base + d))
      ∧ ∀ o, o ∈ t.me.rot.dead ↔ o ∈ s.me.rot.dead ∨ ∃ d, d < s.me.rot.depth
          ∧ s.me.rot.depth ≤ (d + k.toNat) % s.me.rot.size ∧ o = (d + s.me.rot.pos) % s.me.rot.size)
  ∧ (∀ (k : BitVec 11) (s : State), s.view.rot.size ≠ 0 → (k = 0 ∨ s.view.rot.size < k.toNat) →
    TrapsWith (.rotate k) s { cls := 0x04, code := 0, flo := 0, fw := 11 })

/-- `IDLE`, `SYNCI`, `SPALLOC`, `SPFREE` (R145 to R147): a strand idles until a command of its own completes; `SYNCI` after its earlier stores
takes memory as it stands for its later fetches (log entry 27); the scratchpad forms enter both queues, and a range that is no multiple of 8 or
leaves the allotment traps `ILLEGAL_FIELD`, which names b for the range (log entry 45), and a before b where both are no multiples of 8 (38). -/
def Obligations.IdleSynciScratchpad : Prop :=
  (∀ s : State, ∃ t, exec .idle s = .next t ∧ Sets [.sch] s t
    ∧ t.me.sch = { s.me.sch with idle := !s.me.sch.preempt, idleOn := s.cmdsOf s.cur })
  ∧ (∀ s : State,
    ((∀ a ∈ s.view.q.accs ++ s.me.q.accs, a.q = .load) → ∃ t, exec .synci s = .next t ∧ Sets [.fetched] s t ∧ t.me.fetched = s.mem.cells)
    ∧ ((∃ a ∈ s.view.q.accs, a.q ≠ .load) → Stalls .synci s))
  ∧ (∀ (f : RForm) (s s1 s2 : State) (a b : W64), Op.readS f.a 18 s = .ok (a, s1) → Op.readS f.b 12 s1 = .ok (b, s2) →
    let fits := b.toNat % 8 = 0 ∧ 8 ≤ b.toNat ∧ a.toNat + b.toNat ≤ s.view.fr.spad * 1024
    (a.toNat % 8 = 0 → fits →
      (∃ t, exec (.spalloc f) s = .next t ∧ Sets [.q, .files] s t ∧ Enters s t .both (.spalloc a.toNat b.toNat) none false 3 false)
      ∧ ∃ t, exec (.spfree f) s = .next t ∧ Sets [.q, .files] s t ∧ Enters s t .both (.spfree a.toNat b.toNat) none false 3 false)
    ∧ ∀ i, i = Instr.spalloc f ∨ i = Instr.spfree f →
      (a.toNat % 8 ≠ 0 → TrapsWith i s (fieldTrap 18 a)) ∧ (a.toNat % 8 = 0 → ¬fits → TrapsWith i s (fieldTrap 12 b)))

/-! ### Vector integers -/

/-- Lane-by-lane VI forms (R170 to R172, R177, R178): VADD VSUB VMUL VMULH VMIN VMAX VAND VOR VXOR VANDN VSHL VSHR VSAR VCMP,
VABS VPOPC VCLZ VSAT, VMADD VSEL VDOT4 VCLMUL. `VDOT4` reads a and b in lanes of 8 bits and c in lanes of 32, the lane specifier too
(log entry 80). -/
def Obligations.VectorIntegerLanes : Prop :=
  ∀ (f : VForm) (s s1 : State) (a : Vec) (l : Loc), Dst256 s f.d 16 l →
    let ty := f.typ.toNat
    let w := tyW ty
    let n := 2048 / w
    (Op.readV f.a 10 (laneVec w) s = .ok (a, s1) →
      (∀ e ∈ vectorOne f, ∃ t, exec e.1 s = .next t ∧ LaneResult s t l f.lat w n fun i => e.2 (el w a i))
      ∧ ∀ (s2 : State) (b : Vec), Op.readV f.b 4 (laneVec w) s1 = .ok (b, s2) →
        (∀ e ∈ vectorTwo f, ∃ t, exec e.1 s = .next t ∧ LaneResult s t l f.lat w n fun i => e.2 (el w a i) (el w b i))
        ∧ (w = 64 → ∃ t, exec (.vclmul f) s = .next t ∧ LaneResult s t l f.lat w n fun i =>
            exact (clProduct (lo64 (el w a i)) (lo64 (el w b i)) / if f.imm.getLsbD 0 then 2 ^ 64 else 1))
        ∧ ∀ (s3 : State) (c : Vec), Op.readV f.c 54 (laneVec w) s2 = .ok (c, s3) →
          (∃ t, exec (.vmadd f) s = .next t ∧ LaneResult s t l f.lat w n fun i =>
            written f.sat ty (num ty (el w a i) * num ty (el w b i) + num ty (el w c i)))
          ∧ ∃ t, exec (.vsel f) s = .next t ∧ LaneResult s t l f.lat w n fun i => exact (if c.getLsbD i then el w a i else el w b i))
    ∧ ∀ (s2 s3 : State) (b c : Vec), Op.readV f.a 10 (laneVec 8) s = .ok (a, s1) → Op.readV f.b 4 (laneVec 8) s1 = .ok (b, s2) →
      Op.readV f.c 54 (laneVec 32) s2 = .ok (c, s3) → w = 32 →
      ∃ t, exec (.vdot4 f) s = .next t ∧ LaneResult s t l f.lat 32 64 fun j =>
        written f.sat ty (num ty (el 32 c j) + ((List.range 4).map fun k =>
          num (bfld f.imm 0 5) (el 8 a (4 * j + k)) * num (bfld f.imm 0 5) (el 8 b (4 * j + k))).sum)

/-- Forms that move, count or resize lanes (R172 to R176, R178): VMSK VIOTA VROT VSCAN VUNPACK, VPERM VSLIDE VCOMPRESS VEXPAND VPACK,
VSHUF, VBCAST VEXTR VINS. -/
def Obligations.VectorMoves : Prop :=
  ∀ (f : VForm) (s s1 : State) (a : Vec),
    let ty := f.typ.toNat
    let w := tyW ty
    let n := 2048 / w
    let k := f.imm.toNat
    let src := bfld f.imm 0 5
    (∀ l, Dst256 s f.d 16 l → Op.readV f.a 10 (laneVec w) s = .ok (a, s1) →
      (w ≠ 0 → ∃ t v, exec (.vmsk f) s = .next t ∧ VectorResult s t l f.lat v 0
        ∧ ∀ i, i < 2048 → v.getLsbD i = (decide (i < n) && (el w a i).testBit (w - 1)))
      ∧ (∃ t, exec (.viota f) s = .next t ∧ LaneResult s t l f.lat w n fun i => exact (marked a i).length)
      ∧ (k < n → ∃ t, exec (.vrot f) s = .next t ∧ LaneResult s t l f.lat w n fun i => exact (el w a ((i + k) % n)))
      ∧ (∃ t, exec (.vscan f) s = .next t ∧ ∃ v, (∀ i, i < n → el w v i = scanned f a (if f.imm.getLsbD 3 then i else i + 1))
          ∧ VectorResult s t l f.lat v (if (List.range n).any fun i =>
              (scanStep f.sat ty (bfld f.imm 0 3) (scanned f a i) (el w a i)).2 then 32 else 0))
      ∧ ∀ (s2 : State) (b : Vec), Op.readV f.b 4 (laneVec w) s1 = .ok (b, s2) →
        (∃ t, exec (.vperm f) s = .next t ∧ LaneResult s t l f.lat w n fun i => exact (el w a (el w b i % n)))
        ∧ (∃ t, exec (.vslide f) s = .next t ∧ LaneResult s t l f.lat w n fun i => exact (pairEl w a b (i + k)))
        ∧ (∃ t, exec (.vcompress f) s = .next t ∧ LaneResult s t l f.lat w n fun i =>
            exact (((marked b n).map (el w a)).getD i 0))
        ∧ (∃ t, exec (.vexpand f) s = .next t ∧ LaneResult s t l f.lat w n fun i =>
            exact (if b.getLsbD i then el w a (marked b i).length else 0))
        ∧ ∀ (s3 : State) (c : Vec), Op.readV f.c 54 (laneVec w) s2 = .ok (c, s3) →
          ∃ t, exec (.vshuf f) s = .next t ∧ LaneResult s t l f.lat w n fun i => exact (pairEl w a b (el w c i % (2 * n))))
    ∧ (∀ l, Dst256 s f.d 16 l → Op.readV f.a 10 (laneVec (tyW src)) s = .ok (a, s1) →
      (∃ t, exec (.vunpack f) s = .next t ∧ LaneResult s t l f.lat w n fun i =>
        exact (residue w (num src (el (tyW src) a (bfld f.imm 5 3 * n + i)))))
      ∧ ∀ (s2 : State) (b : Vec), Op.readV f.b 4 (laneVec (tyW src)) s1 = .ok (b, s2) → tyW src = 2 * w →
        ∃ t, exec (.vpack f) s = .next t ∧ LaneResult s t l f.lat w n fun i => written f.sat ty (num src (pairEl (tyW src) a b i)))
    ∧ (∀ l x, Dst256 s f.d 16 l → Op.readS f.a 10 s = .ok (x, s1) →
      ∃ t, exec (.vbcast f) s = .next t ∧ LaneResult s t l f.lat w n fun _ => exact x.toNat)
    ∧ (∀ l, Dst8 s f.d 16 l → Op.readV f.a 10 (laneVec w) s = .ok (a, s1) → k < n →
      ∃ t, exec (.vextr f) s = .next t ∧ VectorResult s t l f.lat ((int64 (num ty (el w a k))).setWidth 2048) 0)
    ∧ ∀ l s2 (d : Vec) (x : W64), Dst256 s f.d 16 l → Op.readV f.d 16 0 s = .ok (d, s1) → Op.readS f.a 10 s1 = .ok (x, s2) → k < n →
      ∃ t, exec (.vins f) s = .next t ∧ LaneResult s t l f.lat w n fun i => exact (if i = k then x.toNat else el w d i)

/-! ### Vector floating point -/

/-- Lane-by-lane VF forms (R70 to R72, R154, R156 to R160): FADD FSUB FMUL FDIV FSCALE FMIN FMAX FCPYS FCMP, FSQRT FROUND FABS FNEG
FCLASS FRCP FRSQ FEXP2 FLOG2 FTANH, FMA FMS FNMA FNMS. The approximations (R159), whose choice within their bound is the part's (log entry 13), with
the corners of log entry 79: the special values; `FRCP` and `FRSQ` give a code such that no code's value lies between it and the exact result;
`FEXP2` and `FLOG2` are exact where R159 says so; `FTANH` is odd; a result chosen by the part lies within the bound's ulp of the enclosure of the
exact result. -/
def Obligations.VectorFloatLanes : Prop :=
  (∀ (fzo : Bool) (t inp : Nat) (neg : Bool) (e : Int), ∀ r ∈ approxSpecial fzo t inp neg e, r.1 = r.2)
  ∧ (∀ (t inp m n : Nat) (e k : Int), t ∈ tyF3 → m ≠ 0 →
    (unpackBin t (frcp false t inp (.fin false m e)).1 = .fin false n k → Faithful t n k fun a q => (a * m, q + e))
    ∧ (unpackBin t (frsq false t inp (.fin false m e)).1 = .fin false n k → Faithful t n k fun a q => (a * a * m, 2 * q + e)))
  ∧ (∀ (t inp : Nat) (w : Int), t ∈ tyF3 → (fmtOf t).emin - (fmtOf t).mb ≤ w →
    (w ≤ (fmtOf t).bias → ∃ n k, fexp2 false t inp (.fin (decide (w < 0)) w.natAbs 0) = ((fexp2 false t inp (.fin (decide (w < 0)) w.natAbs 0)).1, 0)
      ∧ unpackBin t (fexp2 false t inp (.fin (decide (w < 0)) w.natAbs 0)).1 = .fin false n k
      ∧ ∀ u, u ≤ k → u ≤ w → atExp false n k u = atExp false 1 w u)
    ∧ (w ≤ (fmtOf t).bias → w ≠ 0 → ∃ n k, unpackBin t (flog2 false t inp (.fin false 1 w)).1 = .fin (decide (w < 0)) n k
      ∧ (flog2 false t inp (.fin false 1 w)).2 = 0 ∧ ∀ u, u ≤ k → u ≤ 0 → atExp false n k u = atExp false w.natAbs 0 u))
  ∧ (∀ (fzo : Bool) (t inp m : Nat) (e : Int), t ∈ tyF3 → m ≠ 0 → inp < 2 ^ (tyW t - 1) →
    ftanh fzo t (inp + 2 ^ (tyW t - 1)) (.fin true m e)
      = ((ftanh fzo t inp (.fin false m e)).1 + 2 ^ (tyW t - 1), (ftanh fzo t inp (.fin false m e)).2))
  ∧ (∀ (op t inp k n : Nat) (x : Encl) (q : Int), t ∈ tyF3 → 1 ≤ k → x.lo ≠ 0 → x.lo ≤ x.hi →
    unpackBin t (approxPick false op t inp k x).1 = .fin false n q →
    let u := max (x.e + bitLen x.lo - 1) (fmtOf t).emin - (fmtOf t).mb
    ∀ b, b ≤ q → b ≤ u → b ≤ x.e → (atExp false n q b - atExp false x.lo x.e b).natAbs ≤ k * 2 ^ (u - b).toNat)
  ∧ ∀ (f : FForm) (s s1 : State) (a : Vec) (l : Loc), Dst256 s f.d 16 l →
    let w := tyW f.typ.toNat
    let n := 2048 / w
    let c := wordCtl f s
    Op.readV f.a 10 (laneVec w) s = .ok (a, s1) →
    (∀ e ∈ floatOne f c, ∃ t, exec e.1 s = .next t ∧ FloatResult s t l f.lat w n fun i => e.2 (el w a i))
    ∧ ∀ (s2 : State) (b : Vec), Op.readV f.b 4 (laneVec w) s1 = .ok (b, s2) →
      (∀ e ∈ floatTwo f c, ∃ t, exec e.1 s = .next t ∧ FloatResult s t l f.lat w n fun i => e.2 (el w a i) (el w b i))
      ∧ ∀ (s3 : State) (x : Vec), Op.readV f.c 54 (laneVec w) s2 = .ok (x, s3) →
        ∀ e ∈ floatThree f c, ∃ t, exec e.1 s = .next t
          ∧ FloatResult s t l f.lat w n fun i => e.2 (el w a i) (el w b i) (el w x i)

/-- Conversions (R58, R161 to R163, R297): FCVT FCVTI ICVTF. The type fields of `FCVT` may hold LADDER codes; one that resolves to no
format traps `ILLEGAL_FIELD`, type2 first where both do (log entry 38), and so does a part index past the parts of its formats. The codebook b is
read in lanes of the source's width (log entry 80). -/
def Obligations.VectorConversions : Prop :=
  ∀ (f : FForm) (s s1 s2 s3 : State) (old a b : Vec) (l : Loc), Dst256 s f.d 16 l →
    let p := f.cc.toNat
    let c := wordCtl f s
    let reads (ts td : Nat) : Prop := ReadIf (decide (tyW td < tyW ts)) (Op.readV f.d 16 0) s old s1
      ∧ Op.readV f.a 10 (laneVec (tyW ts)) s1 = .ok (a, s2) ∧ p < max (tyW ts / tyW td) (tyW td / tyW ts)
    (∀ ts td, s.resolve f.typ2.toNat = some ts → s.resolve f.typ.toNat = some td → ts ∈ tyCvtIn → td ∈ tyCvtOut →
      (f.sat = true → td = 20 ∨ td = 21) → (ts ≠ 24 → f.b = 60) → reads ts td →
      ReadIf (decide (ts = 24)) (Op.readV f.b 4 (laneVec (tyW ts))) s2 b s3 →
      ∃ t, exec (.fcvt f) s = .next t ∧ PartResult s t l f.lat (tyW ts) (tyW td) p old a fun x =>
        roundTo c td (flushIn f.fzi ts (unpackVal (b.toNat % 2 ^ 256) ts x)))
    ∧ (s.resolve f.typ2.toNat = none → TrapsWith (.fcvt f) s { cls := 0x04, code := 0, flo := 38, fw := 5 })
    ∧ (∀ ts, s.resolve f.typ2.toNat = some ts → ts ∈ tyCvtIn →
      (s.resolve f.typ.toNat = none → TrapsWith (.fcvt f) s { cls := 0x04, code := 0, flo := 49, fw := 5 })
      ∧ ∀ td, s.resolve f.typ.toNat = some td → td ∈ tyCvtOut → (f.sat = true → td = 20 ∨ td = 21) → (ts ≠ 24 → f.b = 60) →
        max (tyW ts / tyW td) (tyW td / tyW ts) ≤ p → TrapsWith (.fcvt f) s { cls := 0x04, code := 0, flo := 34, fw := 4 })
    ∧ (f.typ.toNat ∈ tyWset → f.typ2.toNat ∈ tyF → reads f.typ2.toNat f.typ.toNat →
      ∃ t, exec (.fcvti f) s = .next t ∧ PartResult s t l f.lat (tyW f.typ2.toNat) (tyW f.typ.toNat) p old a fun x =>
        toInt c.rm f.typ.toNat (flushIn f.fzi f.typ2.toNat (unpackVal 0 f.typ2.toNat x)))
    ∧ (f.typ.toNat ∈ tyF → f.typ2.toNat ∈ tyWset → reads f.typ2.toNat f.typ.toNat →
      ∃ t, exec (.icvtf f) s = .next t ∧ PartResult s t l f.lat (tyW f.typ2.toNat) (tyW f.typ.toNat) p old a fun x =>
        let n := num f.typ2.toNat x
        roundTo c f.typ.toNat (.fin (decide (n < 0)) n.natAbs 0))

/-- Scaled and self-describing blocks, sums and dot products (R66, R67, R75, R164 to R168, R305): FBSCALE FPACKSD FUNPACKSD FSUMR
FDOT NORMACC. A format byte of no format traps `SD_CODE`; `NORMACC` outside a RESIDUAL stage traps `ILLEGAL_FIELD`. FZI acts on the c operand of
`FDOT` (log entry 79), which is read in lanes of 32 bits whatever the lanes of a and b (log entry 80). -/
def Obligations.VectorBlocks : Prop :=
  ∀ (f : FForm) (s s1 s2 : State) (a b : Vec) (l : Loc), Dst256 s f.d 16 l →
    let c := wordCtl f s
    let t2 := f.typ2.toNat
    let w2 := tyW t2
    let cc := f.cc.toNat
    (Op.readV f.a 10 (laneVec w2) s = .ok (a, s1) → Op.readV f.b 4 (laneVec w2) s1 = .ok (b, s2) →
      (∃ t, exec (.fbscale f) s = .next t ∧ FloatResult s t l f.lat 32 64 fun i =>
        bscaleElem c (el 32 b f.c.toNat) (flushIn f.fzi t2 (unpackVal 0 t2 (el w2 a (64 * cc + i)))))
      ∧ ∀ (s3 : State) (x : Vec), Op.readV f.c 54 (laneVec 32) s2 = .ok (x, s3) →
        ∃ t, exec (.fdot f) s = .next t ∧ FloatResult s t l f.lat 32 64 fun j => dotLane f c (32 / w2) w2 a b (el 32 x j) j)
    ∧ (∀ (s3 : State) (old : Vec), Op.readV f.d 16 0 s = .ok (old, s1) → Op.readV f.a 10 (laneVec 32) s1 = .ok (a, s2) →
      ReadIf (f.typ = 8 || f.typ = 22) (Op.readV f.b 4 (laneVec 32)) s2 b s3 → cc < 4 →
      let blk := sdBlock c f.typ.toNat
        (((List.range 64).map (el 32 a) ++ (List.range 64).map (el 32 b)).map fun x => flushIn f.fzi 17 (unpackVal 0 17 x))
      ∃ t, exec (.fpacksd f) s = .next t ∧ ∃ v, VectorResult s t l f.lat v blk.2
        ∧ ∀ j, j < 4 → el 512 v j = if j = cc then blk.1 % 2 ^ 512 else el 512 old j)
    ∧ (Op.readV f.a 10 (laneVec 32) s = .ok (a, s1) → Op.readV f.b 4 (laneVec 32) s1 = .ok (b, s2) →
      let blk := el 512 a cc
      (sdType (blk % 256) = none → TrapsWith (.funpacksd f) s { cls := 0x07, code := 0x01 })
      ∧ ∀ ty, sdType (blk % 256) = some ty →
        ∃ t, exec (.funpacksd f) s = .next t ∧ FloatResult s t l f.lat 32 64 fun i =>
          let j := 64 * f.c.toNat + i
          if j < 496 / tyW ty then
            roundTo c 17 ((flushIn f.fzi ty (unpackVal (b.toNat % 2 ^ 256) ty (lane (tyW ty) (blk / 2 ^ 16) j))).scale
              (signed 8 (blk / 256 % 256)))
          else (0, 0))
    ∧ (Op.readV f.a 10 (laneVec (tyW f.typ.toNat)) s = .ok (a, s1) →
      let w := tyW f.typ.toNat
      let x (i : Nat) : FVal := flushIn f.fzi f.typ.toNat (unpackVal 0 f.typ.toNat (el w a i))
      (let r := treeSum c f.typ.toNat 11 ((List.range (2048 / w)).map x)
        ∃ t, exec (.fsumr f) s = .next t ∧ VectorResult s t l f.lat (BitVec.ofNat 2048 (roundTo {} f.typ.toNat r.1).1) r.2)
      ∧ (s.view.bind.getLsbD 31 = true ∧ bfld s.view.bind 4 2 = 2 →
        ∃ t, exec (.normacc f) s = .next t ∧ OnSelf [.rlcs] s t ∧ Alters [.fp] s.me t.me
          ∧ (let k := bfld s.view.bind 0 4
            let old := SMap.get 0 (s.rlc k).norm f.c.toNat
            let sum := normOf f w a
            let new := roundOp {} 16 (addExact false (unpackVal 0 16 old.toNat) sum.1)
            t.me.fp = { s.me.fp with flags := s.me.fp.flags ||| BitVec.ofNat 6 (sum.2 ||| new.2) }
              ∧ SMap.get 0 (t.rlc k).norm f.c.toNat = BitVec.ofNat 64 new.1
              ∧ (∀ j, j ≠ f.c.toNat → SMap.get 0 (t.rlc k).norm j = SMap.get 0 (s.rlc k).norm j)
              ∧ ∀ j, j ≠ k → t.rlc j = s.rlc j))
      ∧ (¬(s.view.bind.getLsbD 31 = true ∧ bfld s.view.bind 4 2 = 2) → TrapsWith (.normacc f) s { cls := 0x04, code := 0 }))

/-- Formats (R61, R64, R70): a finite result that does not overflow goes, to nearest, to a code of its sign whose value is no further from it than
that of any other finite code of the type, and NX is clear exactly when the code's value is the result; each code of `f64` to `d8` that
is not a NaN is its own rounding, in every mode and with no flag. -/
def Obligations.Rounding : Prop :=
  (∀ (t : Nat) (neg : Bool) (m : Nat) (e : Int), 16 ≤ t → t ≤ 22 → m ≠ 0 →
    let r := roundTo {} t (.fin neg m e)
    r.2 &&& 4 = 0 →
    ∃ n k, unpackBin t r.1 = .fin neg n k
      ∧ (∀ code n' k' neg', code < 2 ^ tyW t → unpackBin t code = .fin neg' n' k' → ∀ u, u ≤ e → u ≤ k → u ≤ k' →
          (atExp neg n k u - atExp neg m e u).natAbs ≤ (atExp neg' n' k' u - atExp neg m e u).natAbs)
      ∧ ∀ u, u ≤ e → u ≤ k → (r.2 &&& 16 = 0 ↔ atExp neg n k u = atExp neg m e u))
  ∧ ∀ (t code : Nat) (rm : RMode), 16 ≤ t → t ≤ 23 → code < 2 ^ tyW t → (unpackVal 0 t code).isNaN = false →
    roundTo { rm := rm } t (unpackVal 0 t code) = (code, 0)

/-! ### Memory -/

/-- The page walk (R182 to R184, R188, R193): through three nodes to a 64 KiB page, or two to a 512 MiB page, each in its new frame where it has
migrated, it gives the leaf's frame with the low bits of the VA, and sets A, and D on a write, in the leaf entry and nowhere else, unless the
entry's line fails its check, which is noted; an entry not valid, not resident or not permitted faults with its code. A translation ends as
the walk does, or as one the MTU has cached (R181; log entry 18). -/
def Obligations.PageWalk : Prop :=
  ∀ (m : Mem) (pasid va : Nat) (kind : WKind),
    let src := 2 ^ 48 + pasid
    let e0 := (SMap.get 0 m.roots pasid).toNat
    let p1 := entryAt m src e0 (nfld va 41 12)
    let e1 := m.rd p1 8
    let p2 := entryAt m p1 e1 (nfld va 29 12)
    let e2 := m.rd p2 8
    let p3 := entryAt m p2 e2 (nfld va 16 13)
    let e3 := m.rd p3 8
    let gives (p e lg : Nat) : Prop := ∃ d, m.walk pasid va kind = .ok d ∧ d.pa = nfld e 16 32 * 65536 + va % 2 ^ lg ∧ d.lg = lg
      ∧ (let bits := e ||| 16 ||| if kind = .write then 32 else 0
        (m.lineBad (lineOf p) = false → BytesPut m d.mem p 8 bits)
        ∧ (m.lineBad (lineOf p) = true → (∀ a, d.mem.byte a = m.byte a)
            ∧ d.mem.lost = m.lost ++ if bits = e then [] else [lineOf p]))
    Finds m pasid va kind (m.find pasid va kind)
    ∧ ((∀ c ∈ m.tlb, c.covers pasid va kind = false) → m.find pasid va kind = m.walkLearn pasid va kind)
    ∧ (NodeOk m src e0 → NodeOk m p1 e1 → NodeOk m p2 e2 → LeafOk m e3 3 kind → gives p3 e3 16)
    ∧ (NodeOk m src e0 → NodeOk m p1 e1 → LeafOk m e2 2 kind → gives p2 e2 29)
    ∧ (e0.testBit 0 = false → m.walk pasid va kind = .error { code := 0x01, lvl := 0, pte := BitVec.ofNat 64 e0 })
    ∧ (NodeOk m src e0 → NodeOk m p1 e1 → NodeOk m p2 e2 →
        (e3.testBit 0 = false → m.walk pasid va kind = .error { code := 0x01, lvl := 3, pte := BitVec.ofNat 64 e3 })
        ∧ (LeafOk m (e3 ||| 4) 3 kind → kind = .write → e3.testBit 2 = false →
            m.walk pasid va kind = .error { code := 0x02, lvl := 3, pte := BitVec.ofNat 64 e3 })
        ∧ (LeafOk m (e3 ||| 8) 3 kind → kind = .fetch → e3.testBit 3 = false →
            m.walk pasid va kind = .error { code := 0x03, lvl := 3, pte := BitVec.ofNat 64 e3 })
        ∧ (LeafOk m (e3 ||| 128) 3 kind → e3.testBit 7 = false →
            m.walk pasid va kind = .error { code := 0x09, lvl := 3, pte := BitVec.ofNat 64 e3 }))

/-- The translation of a run of bytes of one page (R184 to R187, R190, R281): under a lease, by a translation that grants one (`PageWalk` says which;
log entry 18), for a remote VA; the traps of a parcel's extent, which the PASID names (log entry 54), a remote load and a walk that faults; a page-in
where the page is not resident. -/
def Obligations.Translation : Prop :=
  ∀ (va : W64) (n : Nat) (kind : WKind) (ak : Nat) (s : State), 0 < n → va.toNat % 65536 + n ≤ 65536 →
    let pasid := s.me.id.pasid.toNat
    (s.parcelAt pasid va.toNat n = none →
      (s.isLocal va.toNat = false → kind = .write → Op.transl va n kind ak s = .ok (([], [⟨0, va, n⟩]), s))
      ∧ (s.isLocal va.toNat = false → kind ≠ .write →
          Raises (Op.transl va n kind ak) s (memoryTrap 0x04 va ak))
      ∧ (s.isLocal va.toNat = true → s.mem.frozen pasid va.toNat = false →
        (∀ l, (s.me.q.leases.find? fun l => l.covers va.toNat kind) = some l → s.mem.paBusy (l.pa + (va.toNat - l.va)) 1 = false →
          ∃ u, Op.transl va n kind ak s = .ok (([⟨0, l.pa + (va.toNat - l.va), n, va.toNat⟩], []), u) ∧ Changes [.mem] s u
            ∧ Counted s.mem u.mem (l.pa + (va.toNat - l.va)) n)
        ∧ ((s.me.q.leases.find? fun l => l.covers va.toNat kind) = none →
          (∀ d, s.mem.find pasid va.toNat kind = .ok d → s.mem.paBusy d.pa 1 = false →
            ∃ u, Op.transl va n kind ak s = .ok (([⟨0, d.pa, n, va.toNat⟩], []), u) ∧ Counted d.mem u.mem d.pa n ∧ OnSelf [.mem, .issue] s u
              ∧ Alters [.q] s.me u.me ∧ u.issue = { s.issue with walked := s.issue.walked ++ d.set.toList }
              ∧ ∃ l, u.me.q = { s.me.q with leases := (s.me.q.leases ++ [l]).drop (s.me.q.leases.length - 7) }
                  ∧ l.va = va.toNat / 2 ^ d.lg * 2 ^ d.lg ∧ l.lg = d.lg ∧ l.write = decide (kind = .write))
          ∧ (∀ f, s.mem.find pasid va.toNat kind = .error f → f.code ≠ 0 →
            (f.code = 7 ∨ f.code = 9 → Stops (Op.transl va n kind ak) s (.pageIn va f.code))
            ∧ (f.code ≠ 7 → f.code ≠ 9 → Raises (Op.transl va n kind ak) s
                { cls := 0x08, code := f.code, va := va, aux0 := BitVec.ofNat 64 (ak + 16 * f.lvl), aux1 := f.pte })))))
    ∧ ∀ x, s.parcelAt pasid va.toNat n = some x → ∃ e : TrapInfo, Raises (Op.transl va n kind ak) s e
        ∧ e.cls = 0x0C ∧ e.code = 0x03 ∧ e.aux0 = BitVec.ofNat 64 x

/-- Loads (R190, R191, R195, R202 to R204, R206, R208): LD.i8 LD.i16 LD.i32 LD.n8 LD.n16 LD.n32 LD.i64 LDV, LDS.i8 LDS.i16 LDS.i32 LDS.n8
LDS.n16 LDS.n32 LDS.i64 LDSV, TOUCH, LD.acq, GATHER. Each stands in the load queue; what it reads, and where its result goes, is
`AccessEffects`; `LD.acq` acquires at its scope. A scratchpad read past the allotment traps `SP_RANGE`, a remote element of a gather
`REMOTE_LOAD`. -/
def Obligations.Loads : Prop :=
  (∀ (f : MForm) (s s1 : State) (x y : W64), Op.readAB f.a f.b s = .ok ((x, y), s1) →
    (∀ l, Dst8 s f.d 16 l → ∀ e ∈ loadForms f, ∀ segs r u, Op.transl (x + y) e.2.1 .read 0 s = .ok ((segs, r), u) →
      ∃ t, exec e.1 s = .next t ∧ Queued s u t .load (.load segs e.2.2 (8 * e.2.1)) (some { loc := l }) true 3 false)
    ∧ (∀ l, Dst256 s f.d 16 l → ∀ segs r u, Op.transl (x + y) 256 .read 0 s = .ok ((segs, r), u) →
      ∃ t, exec (.ldv f) s = .next t ∧ Queued s u t .load (.load segs false 0) (some { loc := l }) true 3 false)
    ∧ (∀ l, Dst8 s f.d 16 l → ∀ e ∈ loadsForms f,
      ((x + y).toNat + e.2.1 ≤ s.view.fr.spad * 1024 → SpadReady s (x + y).toNat e.2.1 →
        ∃ t, exec e.1 s = .next t
          ∧ Queued s s t .load (.sload (x + y).toNat e.2.1 e.2.2 (8 * e.2.1)) (some { loc := l }) true 3 false)
      ∧ (s.view.fr.spad * 1024 < (x + y).toNat + e.2.1 → TrapsWith e.1 s (memoryTrap 0x06 (x + y) 5)))
    ∧ (∀ l, Dst256 s f.d 16 l →
      ((x + y).toNat + 256 ≤ s.view.fr.spad * 1024 → SpadReady s (x + y).toNat 256 →
        ∃ t, exec (.ldsv f) s = .next t ∧ Queued s s t .load (.sload (x + y).toNat 256 false 0) (some { loc := l }) true 3 false)
      ∧ (s.view.fr.spad * 1024 < (x + y).toNat + 256 → TrapsWith (.ldsv f) s (memoryTrap 0x06 (x + y) 5)))
    ∧ (s.isLocal (x + y).toNat = true → ∀ segs r u, Op.transl (x + y) 1 .read 4 s = .ok ((segs, r), u) →
      ∃ t, exec (.touch f) s = .next t ∧ Queued s u t .load (.load [] false 0) none false 3 false)
    ∧ (s.isLocal (x + y).toNat = false → ∃ t, exec (.touch f) s = .next t ∧ AllQuiet s t))
  ∧ ∀ (f : AForm) (s : State),
    (∀ (s1 : State) (x y : W64) (l : Loc), Op.readAB f.a f.b s = .ok ((x, y), s1) → Dst8 s f.d 16 l →
      ∀ segs r u, Op.transl (x + y) (tyW f.typ.toNat / 8) .read 0 s = .ok ((segs, r), u) →
      ∃ t, exec (.ldAcq f) s = .next t
        ∧ Queued s u t .load (.load segs (decide (f.typ.toNat ≤ 3 ∨ f.typ = 8)) (tyW f.typ.toNat)) (some { loc := l }) true
          f.scope.toNat true)
    ∧ ∀ (es : List (Nat × W64)) (l : Loc), GsReads f s es → Dst256 s f.d 16 l →
      ((∀ e ∈ es, s.isLocal e.2.toNat = true) → ∀ segs r u, Op.gsTransl (tyW f.typ.toNat) .read 0 es s = .ok ((segs, r), u) →
        ∃ t, exec (.gather f) s = .next t ∧ Queued s u t .load (.load segs false 0) (some { loc := l }) true 3 false)
      ∧ ∀ e, (es.find? fun e => !(s.isLocal e.2.toNat)) = some e → TrapsWith (.gather f) s (memoryTrap 0x04 e.2 0)

/-- Stores (R195, R202, R203, R206, R208): ST.i8 ST.i16 ST.i32 ST.i64 STV, STS.i8 STS.i16 STS.i32 STS.i64 STSV, ST.rel, SCATTER. Each stands in the store
queue with its data; what it writes is `AccessEffects`. A scratchpad store past the allotment traps `SP_RANGE`. -/
def Obligations.Stores : Prop :=
  (∀ (f : MForm) (s s1 s2 : State) (v x y : W64), Op.readS f.d 16 s = .ok (v, s1) → Op.readAB f.a f.b s1 = .ok ((x, y), s2) →
    ∀ e ∈ storeForms f,
      (∀ segs rem u, Op.transl (x + y) e.2.2 .write 1 s = .ok ((segs, rem), u) →
        ∃ t, exec e.1 s = .next t ∧ Queued s u t .store (.store segs rem (v.setWidth 2048)) none false 3 false)
      ∧ ((x + y).toNat + e.2.2 ≤ s.view.fr.spad * 1024 →
        ∃ t, exec e.2.1 s = .next t ∧ Queued s s t .store (.sstore (x + y).toNat e.2.2 (v.setWidth 2048)) none false 3 false)
      ∧ (s.view.fr.spad * 1024 < (x + y).toNat + e.2.2 → TrapsWith e.2.1 s (memoryTrap 0x06 (x + y) 1)))
  ∧ (∀ (f : MForm) (s s1 s2 : State) (v : Vec) (x y : W64), Op.readData f.d s = .ok (v, s1) →
    Op.readAB f.a f.b s1 = .ok ((x, y), s2) →
    (∀ segs rem u, Op.transl (x + y) 256 .write 1 s = .ok ((segs, rem), u) →
      ∃ t, exec (.stv f) s = .next t ∧ Queued s u t .store (.store segs rem v) none false 3 false)
    ∧ ((x + y).toNat + 256 ≤ s.view.fr.spad * 1024 →
      ∃ t, exec (.stsv f) s = .next t ∧ Queued s s t .store (.sstore (x + y).toNat 256 v) none false 3 false)
    ∧ (s.view.fr.spad * 1024 < (x + y).toNat + 256 → TrapsWith (.stsv f) s (memoryTrap 0x06 (x + y) 1)))
  ∧ (∀ (f : AForm) (s s1 s2 : State) (v x y : W64), Op.readS f.d 16 s = .ok (v, s1) → Op.readAB f.a f.b s1 = .ok ((x, y), s2) →
    ∀ segs rem u, Op.transl (x + y) (tyW f.typ.toNat / 8) .write 1 s = .ok ((segs, rem), u) →
    ∃ t, exec (.stRel f) s = .next t ∧ Queued s u t .store (.store segs rem (v.setWidth 2048)) none false f.scope.toNat true)
  ∧ ∀ (f : AForm) (s s1 : State) (v : Vec) (es : List (Nat × W64)), Op.readV f.d 16 (laneVec (tyW f.typ.toNat)) s = .ok (v, s1) →
    GsReads f s1 es → ∀ segs rem u, Op.gsTransl (tyW f.typ.toNat) .write 1 es s = .ok ((segs, rem), u) →
    ∃ t, exec (.scatter f) s = .next t ∧ Queued s u t .store (.store segs rem v) none false 3 false

/-- Atomics and bank-side commands (R190, R213 to R216): AADD AMIN AMAX ALOG AXCHG ACAS, MRED MCAS MSACC. Each stands in both queues;
its destination is zero at once where the VA is remote. An address that is no multiple of the size traps `ILLEGAL_FIELD`, which names the
specifier of the address and holds its value (log entry 45). -/
def Obligations.AtomicsQueue : Prop :=
  (∀ (f : AForm) (s s1 s2 s3 : State) (ea b c : W64) (l : Loc), Op.readS f.a 10 s = .ok (ea, s1) → Op.readS f.b 4 s1 = .ok (b, s2) →
    Dst8 s f.d 16 l →
    let n := tyW f.typ.toNat / 8
    ∀ e ∈ atomicForms f, (e.2 = 7 → Op.readS f.c 54 s2 = .ok (c, s3)) → (e.2 ≠ 7 → c = 0) →
      (ea.toNat % n ≠ 0 → TrapsWith e.1 s { cls := 0x04, code := 0, flo := 10, fw := 6, va := ea })
      ∧ (ea.toNat % n = 0 → s.isLocal ea.toNat = true → ∀ g segs r u, Op.transl ea n .write 2 s = .ok ((g :: segs, r), u) →
          ∃ t, exec e.1 s = .next t ∧ Queued s u t .both
            (.atom e.2 f.typ.toNat g (b.toNat % 2 ^ tyW f.typ.toNat) (c.toNat % 2 ^ tyW f.typ.toNat))
            (some { loc := l }) true f.scope.toNat (f.fn.getLsbD 3))
      ∧ (ea.toNat % n = 0 → s.isLocal ea.toNat = false → f.fn.getLsbD 2 = true → TrapsWith e.1 s (memoryTrap 0x04 ea 2))
      ∧ (ea.toNat % n = 0 → s.isLocal ea.toNat = false → f.fn.getLsbD 2 = false →
          ∃ t, exec e.1 s = .next t ∧ OnSelf [] s t ∧ Alters [.regs, .files, .rot, .q] s.me t.me ∧ Stored s.me t.me l 0
            ∧ t.me.files.lm = 0 ∧ t.me.files.lmWait = none ∧ LastKept [3] s.me t.me ∧ ∃ u, QueuesKept s.me u.me ∧ u.issue = s.issue
              ∧ Enters u t .both (.ratom e.2 f.typ.toNat ea (b.toNat % 2 ^ tyW f.typ.toNat) (c.toNat % 2 ^ tyW f.typ.toNat)) none false
                f.scope.toNat (f.fn.getLsbD 3)))
  ∧ (∀ (f : AForm) (s s1 s2 : State) (v : Vec) (ea : W64), Op.readV f.d 16 (laneVec (tyW f.typ.toNat)) s = .ok (v, s1) →
    Op.readS f.a 10 s1 = .ok (ea, s2) →
    let op := bfld f.fn 0 3
    (ea.toNat % 64 ≠ 0 → TrapsWith (.mred f) s { cls := 0x04, code := 0, flo := 10, fw := 6, va := ea })
    ∧ (ea.toNat % 64 = 0 → s.isLocal ea.toNat = true → ∀ g segs r u, Op.transl ea 64 .write 2 s = .ok ((g :: segs, r), u) →
      (∃ t, exec (.mred f) s = .next t
        ∧ Queued s u t .both (.bank op f.typ.toNat (f.fn.getLsbD 3) g (v.setWidth 512) 0 0) none false 3 false)
      ∧ ∀ s3 (b : W64), Op.readS f.b 4 s2 = .ok (b, s3) → ∃ t, exec (.msacc f) s = .next t
        ∧ Queued s u t .both (.bank 0x21 f.typ.toNat false g (v.setWidth 512) (b.setWidth 512) 0) none false 3 false)
    ∧ (ea.toNat % 64 = 0 → s.isLocal ea.toNat = false →
      (∃ t, exec (.mred f) s = .next t
        ∧ Queued s s t .both (.rbank op f.typ.toNat (f.fn.getLsbD 3) ea (v.setWidth 512) 0 0) none false 3 false)
      ∧ ∀ s3 (b : W64), Op.readS f.b 4 s2 = .ok (b, s3) → ∃ t, exec (.msacc f) s = .next t
        ∧ Queued s s t .both (.rbank 0x21 f.typ.toNat false ea (v.setWidth 512) (b.setWidth 512) 0) none false 3 false))
  ∧ ∀ (f : AForm) (s s1 s2 s3 : State) (ea : W64) (b c : Vec) (l : Loc), Op.readS f.a 10 s = .ok (ea, s1) →
    Op.readV f.b 4 (laneVec (tyW f.typ.toNat)) s1 = .ok (b, s2) → Op.readV f.c 54 (laneVec (tyW f.typ.toNat)) s2 = .ok (c, s3) →
    Dst256 s f.d 16 l →
    (ea.toNat % 64 ≠ 0 → TrapsWith (.mcas f) s { cls := 0x04, code := 0, flo := 10, fw := 6, va := ea })
    ∧ (ea.toNat % 64 = 0 → s.isLocal ea.toNat = true → ∀ g segs r u, Op.transl ea 64 .write 2 s = .ok ((g :: segs, r), u) →
      ∃ t, exec (.mcas f) s = .next t
        ∧ Queued s u t .both (.bank 0x20 f.typ.toNat false g 0 (b.setWidth 512) (c.setWidth 512)) (some { loc := l }) true 3 false)
    ∧ (ea.toNat % 64 = 0 → s.isLocal ea.toNat = false →
      ∃ t, exec (.mcas f) s = .next t ∧ OnSelf [] s t ∧ Alters [.regs, .files, .rot, .q] s.me t.me
        ∧ Stored s.me t.me l 0 ∧ t.me.files.lm = 0 ∧ t.me.files.lmWait = none ∧ LastKept [3] s.me t.me
        ∧ t.me.q.next = s.me.q.next + 1 ∧ ∃ a, t.me.q.accs.map Access.bare = s.me.q.accs.map Access.bare ++ [a] ∧ a.q = .both
        ∧ a.act = .rbank 0x20 f.typ.toNat false ea 0 (b.setWidth 512) (c.setWidth 512))

/-- Markers and fences (R195, R205, R209, R210, R212): QMARK, FENCE, WAITF and the event WAITF_COMPLETE. A `FENCE` adds the accesses not
performed at its scope to its token and widens the token's scope; a `WAITF` whose accesses have all performed answers the status and
frees the token. -/
def Obligations.MarkersAndFences : Prop :=
  (∀ s : State, ∃ t, exec .qmark s = .next t ∧ Queued s s t .both .mark none false 3 false)
  ∧ (∀ (tok scope : BitVec 6) (s : State),
    let old := SMap.get {} s.me.q.toks tok.toNat
    ∃ t, exec (.fence tok scope) s = .next t ∧ Sets [.q] s t
      ∧ t.me.q.next = s.me.q.next + 1
      ∧ t.me.q.accs = s.me.q.accs ++ [markAccess s s.me.q.next]
      ∧ t.me.q.waitf = s.me.q.waitf ∧ t.me.q.leases = s.me.q.leases
      ∧ ∀ k, let new := SMap.get {} t.me.q.toks k
        if k = tok.toNat then new.used = true ∧ new.scope = max old.scope scope.toNat ∧ new.count = old.count
            ∧ (∀ i, i ∈ new.ids ↔ i ∈ old.ids ∨ i ∈ s.unperformed s.cur s.me scope.toNat)
        else new = SMap.get {} s.me.q.toks k)
  ∧ (∀ (d : Spec) (tok : BitVec 6) (s : State) (l : Loc), s.tokenDone s.cur s.view tok.toNat = true →
    let status := (SMap.get {} s.view.q.toks tok.toNat).status
    (∃ t, exec (.waitf d tok false) s = .next t ∧ Sets [.q] s t ∧ t.me.q.next = s.me.q.next + 1
      ∧ t.me.q.accs = s.me.q.accs ++ [markAccess s s.me.q.next]
      ∧ SMap.get {} t.me.q.toks tok.toNat = {} ∧ ∀ k, k ≠ tok.toNat → SMap.get {} t.me.q.toks k = SMap.get {} s.me.q.toks k)
    ∧ (Dst8 s d 16 l → ∃ t, exec (.waitf d tok true) s = .next t ∧ OnSelf [] s t ∧ Alters [.regs, .files, .rot, .q] s.me t.me
      ∧ Stored s.me t.me l status.toNat ∧ t.me.files.lm = status.setWidth 2048 ∧ t.me.files.lmWait = none ∧ LastKept [3] s.me t.me
      ∧ t.me.q.next = s.me.q.next + 1
      ∧ t.me.q.accs.map Access.bare = s.me.q.accs.map Access.bare ++ [markAccess s s.me.q.next]
      ∧ SMap.get {} t.me.q.toks tok.toNat = {}
      ∧ ∀ k, k ≠ tok.toNat → SMap.get {} t.me.q.toks k = SMap.get {} s.me.q.toks k))
  ∧ (∀ (sid k : Nat) (s : State) (b : Strand), s.strand? sid = some b → b.q.waitf = some k → s.tokenDone sid b k = true →
    ∃ t, exec (.waitfComplete sid) s = .next t ∧ Changes [.strands] s t ∧ t.strand? sid = some { b with q := { b.q with waitf := none } }
      ∧ ∀ i, i ≠ sid → t.strand? i = s.strand? i)

/-- ACCESS_PERFORMED (R189, R195 to R199, R207, R210, R277): a queued access that nothing before it orders, or a plain one that passes plain accesses
of other lines, and that no busy frame, full buffer of held sends or held release keeps back, performs; what follows is what its strand and the
fabric waited for. One that may not perform yet stays as it is (log entry 3). -/
def Obligations.AccessPerforms : Prop :=
  ∀ (s : State) (sid : Nat) (x : Strand) (a : Access) (before : List Access), s.strand? sid = some x →
    accSplit a.id x.q.accs = some (before, a) →
    let free := ∀ b ∈ before, (a.q = .load ∧ b.q = .store) ∨ (a.q = .store ∧ b.q = .load)
    let ready := (∀ g ∈ a.act.segs, s.mem.paBusy g.pa g.len = false) ∧ s.holdFull x.id.part a.act.homes = false
      ∧ (a.waitsHeld = true → ∀ i ∈ s.heldIds sid, a.id ≤ i)
      ∧ (a.rel = true → a.q ≠ .load → a.scope = 4 → ∀ i ∈ s.remoteIds sid, a.id ≤ i)
    (free ∨ a.passes before = true → ready →
      ∃ t, exec (.accessPerformed sid a.id) s = .next t ∧ t = (((s.perform sid x a).afterAcc sid a.act).reap sid).fabTick
        ∧ ((∀ d n m, a.act ≠ .hold d n m) → (s.perform sid x a).afterAcc sid a.act = (s.perform sid x a).settle sid))
    ∧ (¬free → a.passes before = false → exec (.accessPerformed sid a.id) s = .next s)
    ∧ (¬ready → exec (.accessPerformed sid a.id) s = .next s)
    ∧ (a.passes before = true → a.rel = false ∧ ((∃ l g w, a.act = .load l g w) ∨ ∃ l d, a.act = .store l [] d)
        ∧ ∀ b ∈ before, b.q = a.q → b.rel = false ∧ ∀ g ∈ a.act.segs, ∀ h ∈ b.act.segs, ∀ k, k ∈ linesOf g.pa g.len → k ∉ linesOf h.pa h.len)

/-- What a queued access does when it performs, at every scope of this device in one step (R29, R147, R191 to R193, R199, R203, R207, R214 to R216, R277;
log entry 4): loads and stores of memory and of the scratchpad, atomics, bank-side commands, `SPALLOC` and `SPFREE`, markers, releases of `TRIG`
and `EXIT`, `FHOLD`, and those that send packets. Memory outside the bytes written stays. A read of a line that fails its check lands nowhere
and stops its strand; a partial write into one is discarded; both are reported, but for a load's. Bytes that no status of an incomplete block
holds: there a store's bytes are open (R295; log entry 98). That a hold set changes where the queue entry of its form performs is log entry 39. -/
def Obligations.AccessEffects : Prop :=
  ∀ (s : State) (sid : Nat) (x : Strand) (a : Access), s.strand? sid = some x →
    let t := s.perform sid x a
    (∀ segs sign w, a.act = .load segs sign w → w ≤ 64 → s.mem.badVa segs = none →
      LandedIn s t sid a (extended sign w (s.mem.gather segs)) ∧ Changes [.strands, .cores] s t)
    ∧ (∀ segs sign w va, a.act = .load segs sign w → s.mem.badVa segs = some va → FailedRead s t sid a va ∧ Changes [.strands] s t)
    ∧ (∀ segs data, a.act = .store segs [] data → s.statusHits (segs.map fun g => (g.pa, g.len)) = [] →
      ((∀ g ∈ segs, ∀ l, l ∈ linesOf g.pa g.len → s.mem.lineBad l = false) →
        LeftQueue s t sid a [] ∧ Changes [.strands, .mem] s t ∧ SegsPut s.mem t.mem segs data.toNat)
      ∧ ∀ g, segs = [g] → ∃ u : State, ∃ bad, Changes [.mem] s u ∧ StoredPast s.mem u.mem g.pa g.len (data.toNat / 2 ^ (8 * g.off))
        ∧ (∀ l, l ∈ bad ↔ l ∈ linesOf g.pa g.len ∧ s.mem.lineBad l = true ∧ coversLine g.pa g.len l = false)
        ∧ t = (u.lineEvents x.id.part bad).landNone sid a)
    ∧ (∀ rem data, a.act = .store [] rem data → rem ≠ [] → ∃ u : State, LeftQueue s u sid a [] ∧ Changes [.strands] s u
      ∧ SentBy u t sid x a (rsegPkts (s.accHdr x a u.takeTag.1 2 0) rem data.toNat))
    ∧ (∀ off n sign w, a.act = .sload off n sign w → w ≤ 64 →
      (∀ l, x.spadBad off n = some l → FailedRead s t sid a (64 * l) ∧ Changes [.strands] s t)
      ∧ (x.spadBad off n = none →
        ((∀ k, k < n → (x.sword ((off + k) / 8)).valid = true) →
          LandedIn s t sid a (extended sign w (ofBytes ((List.range n).map fun k => BitVec.ofNat 8 (x.spadByte (off + k)))))
            ∧ Changes [.strands, .cores] s t)
        ∧ ((∃ k, k < n ∧ (x.sword ((off + k) / 8)).valid = false) → ∃ u : State, u = s.logWords x (x.invalidWords off n)
            ∧ LandedIn u t sid a (extended sign w (ofBytes ((List.range n).map fun k =>
                if (x.sword ((off + k) / 8)).valid then BitVec.ofNat 8 (x.spadByte (off + k)) else 0)))
            ∧ Changes [.strands, .cores] u t)))
    ∧ (∀ off n data, a.act = .sstore off n data → n ≤ 256 →
      ((∀ l, l ∈ linesOf off n → l ∉ x.scrBad ∨ coversLine off n l = true) → LeftQueue s t sid a [.scr, .scrBad] ∧ Changes [.strands] s t)
      ∧ ((∀ l, l ∈ linesOf off n → l ∈ x.scrBad → coversLine off n l = false) → ∃ u : State, ∃ y, Changes [.strands] s u ∧ u.strand? sid = some y
        ∧ (∀ o, y.spadByte o = if (off ≤ o ∧ o < off + n) ∧ (o / 64 ∉ x.scrBad ∨ coversLine off n (o / 64) = true)
            then byteOf data.toNat (o - off) else x.spadByte o)
        ∧ t = (((linesOf off n).filter fun l => decide (l ∈ x.scrBad)).foldl (fun v l => v.spadEvent x.id.part l) u).landNone sid a)
      ∧ ∃ y, t.strand? sid = some y
        ∧ (∀ o, y.spadByte o = if (off ≤ o ∧ o < off + n) ∧ (o / 64 ∉ x.scrBad ∨ coversLine off n (o / 64) = true)
            then byteOf data.toNat (o - off) else x.spadByte o)
        ∧ (∀ l, l ∈ y.scrBad ↔ l ∈ x.scrBad ∧ ¬(l ∈ linesOf off n ∧ coversLine off n l = true))
        ∧ ∀ w, (y.sword w).valid = true ↔ (x.sword w).valid = true
            ∨ ∃ k, k < n ∧ (off + k) / 8 = w ∧ ((off + k) / 64 ∉ x.scrBad ∨ coversLine off n ((off + k) / 64) = true))
    ∧ (∀ op typ g b c va, a.act = .atom op typ g b c → s.mem.badVa [g] = some va → ∃ u : State,
      u = s.lineEvents x.id.part ((linesOf g.pa g.len).filter s.mem.lineBad) ∧ FailedRead u t sid a va ∧ Changes [.strands] u t)
    ∧ (∀ op typ sat g v y z va, a.act = .bank op typ sat g v y z → s.mem.badVa [g] = some va → ∃ u : State,
      u = s.lineEvents x.id.part ((linesOf g.pa g.len).filter s.mem.lineBad) ∧ Changes [.strands] u t
        ∧ if a.dst.isSome then FailedRead u t sid a va else LeftQueue u t sid a [])
    ∧ (∀ op typ va b c, a.act = .ratom op typ va b c → ∃ u : State, LeftQueue s u sid a [] ∧ Changes [.strands] s u
      ∧ SentBy u t sid x a [({ s.accHdr x a u.takeTag.1 3 va.toNat with typ := typ, fn := op, opnd0 := b, opnd1 := c } : Hdr).txn []])
    ∧ (∀ op typ sat va v y z, a.act = .rbank op typ sat va v y z → ∃ u : State, LeftQueue s u sid a [] ∧ Changes [.strands] s u
      ∧ SentBy u t sid x a [bankTxn (s.accHdr x a u.takeTag.1 5 va.toNat) op typ sat v y z])
    ∧ (∀ d n mode, a.act = .hold d n mode → ∃ u w : State, Changes [.parts] s u ∧ (∀ p, p ≠ x.id.part → u.part p = s.part p)
      ∧ u.part x.id.part = { s.part x.id.part with hold := (u.part x.id.part).hold }
      ∧ (∀ k, SMap.get none (u.part x.id.part).hold k
          = if d ≤ k ∧ k < d + n then mode else SMap.get none (s.part x.id.part).hold k)
      ∧ w = u.holdPass ∧ LeftQueue w t sid a [])
    ∧ (a.act = .trig → ∃ u : State, LeftQueue s u sid a [] ∧ Changes [.strands] s u ∧ t = u.trigDone sid)
    ∧ (a.act = .exit → ∃ u : State, LeftQueue s u sid a [] ∧ Changes [.strands] s u ∧ t = u.exitDone sid)
    ∧ (∀ op typ g b c, a.act = .atom op typ g b c → (∀ l, l ∈ linesOf g.pa g.len → s.mem.lineBad l = false) → g.len = tyW typ / 8 →
      s.statusHits [(g.pa, g.len)] = [] →
      let m := s.mem.rd g.pa g.len
      LandedIn s t sid a (extended (decide (typ ≤ 3 ∨ typ = 8)) (tyW typ) m)
        ∧ BytesPut s.mem t.mem g.pa g.len (atomicValue op typ m b c) ∧ Changes [.strands, .cores, .mem] s t)
    ∧ (∀ op typ sat g v y z, a.act = .bank op typ sat g v y z → op < 6 ∨ op = 0x20 ∨ op = 0x21 → g.pa % 64 = 0 → g.len = 64 →
      s.mem.lineBad (g.pa / 64) = false → s.statusHits [(g.pa, g.len)] = [] →
      let old := s.mem.line g.pa
      let scale := if typ = 16 then unpackVal 0 16 (y.toNat % 2 ^ 64) else unpackVal 0 17 (y.toNat % 2 ^ 32)
      (if a.dst.isSome then LandedIn s t sid a old.toNat else LeftQueue s t sid a []) ∧ Changes [.strands, .cores, .mem] s t
        ∧ (∀ b, ¬(g.pa ≤ b ∧ b < g.pa + 64) → t.mem.byte b = s.mem.byte b)
        ∧ ∀ i, i < 512 / tyW typ → lineEl (tyW typ) (t.mem.line g.pa) i
            = bankValue op typ sat (lineEl (tyW typ) old i) (lineEl (tyW typ) v i) (lineEl (tyW typ) y i) (lineEl (tyW typ) z i) scale
              % 2 ^ tyW typ)
    ∧ (∀ b n, a.act = .spalloc b n → n % 8 = 0 → b % 8 = 0 → LeftQueue s t sid a [.scr] ∧ Changes [.strands] s t
      ∧ ∃ y, t.strand? sid = some y ∧ ∀ w, y.sword w = if b ≤ 8 * w ∧ 8 * w < b + n then { x.sword w with valid := false } else x.sword w)
    ∧ (∀ b n, a.act = .spfree b n → n % 8 = 0 → b % 8 = 0 → LeftQueue s t sid a [.scr] ∧ Changes [.strands] s t
      ∧ ∃ y, t.strand? sid = some y ∧ ∀ w, y.sword w = if b ≤ 8 * w ∧ 8 * w < b + n then { freed := true } else x.sword w)
    ∧ ((a.act = .mark ∨ a.act = .cmd) → LeftQueue s t sid a [] ∧ Changes [.strands] s t)

/-! ### Timelines and the copy engines -/

/-- Timelines (R129, R217 to R220): TLWAIT, TLREAD, TLREAD.err, and the completion of a command: the counter goes to the greatest number up
to which every command has completed, the first failure stays in the error word, conditions are ORed in. -/
def Obligations.Timelines : Prop :=
  (∀ (f : TForm) (s s1 : State) (a : W64), Op.readS f.a 10 s = .ok (a, s1) →
    let c := f.ctx.toNat
    (s.ctxOwn s.view.id.part c = false → TrapsWith (.tlwait f) s { cls := 0x04, code := 0, flo := 32, fw := 16 })
    ∧ (s.ctxOwn s.view.id.part c = true →
      (∀ e, (s.view.trap.pending.find? fun e => e.ctx = c && decide (e.seq ≤ a.toNat)) = some e → TrapsWith (.tlwait f) s e.info)
      ∧ ((∀ e ∈ s.view.trap.pending, ¬(e.ctx = c ∧ e.seq ≤ a.toNat)) →
        (a.toNat ≤ (s.ctx c).counter.toNat ∨ s.view.sch.waitDone = true → ∃ t, exec (.tlwait f) s = .next t ∧ WaitOver s t)
        ∧ ((s.ctx c).counter.toNat < a.toNat → s.view.sch.waitDone = false → Waits (.tlwait f) s 1 c a 3))))
  ∧ (∀ (f : TForm) (s : State) (l : Loc), Dst8 s f.d 16 l → s.ctxOwn s.view.id.part f.ctx.toNat = true →
    (∃ t, exec (.tlread f) s = .next t ∧ MemoryResult [] s t l (s.ctx f.ctx.toNat).counter)
    ∧ ∃ t, exec (.tlreadErr f) s = .next t ∧ MemoryResult [.ctxs] s t l (s.ctx f.ctx.toNat).err
      ∧ t.ctx f.ctx.toNat = { s.ctx f.ctx.toNat with err := 0 } ∧ ∀ k, k ≠ f.ctx.toNat → t.ctx k = s.ctx k)
  ∧ ∀ (s : State) (c n : Nat) (fail : Option (Nat × Nat)) (flags : Nat), (s.ctx c).counter.toNat + (s.ctx c).done.length + 1 < 2 ^ 64 →
    let v := s.ctx c
    let w := (s.complete c n fail flags).ctx c
    w.issued = v.issued ∧ v.counter.toNat ≤ w.counter.toNat
      ∧ (∀ k, v.counter.toNat < k → k ≤ w.counter.toNat → k = n ∨ k ∈ v.done)
      ∧ ¬(w.counter.toNat + 1 = n ∨ w.counter.toNat + 1 ∈ v.done)
      ∧ (fail = none → w.err = v.err ||| BitVec.ofNat 64 (flags % 64))
      ∧ (∀ kind detail, fail = some (kind, detail) → v.err.getLsbD 7 = false → bfld w.err 32 32 = n % 2 ^ 32 ∧ bfld w.err 24 8 = kind % 256
          ∧ bfld w.err 8 16 = detail % 65536 ∧ w.err.getLsbD 7 = true ∧ w.err.getLsbD 6 = v.err.getLsbD 6)
      ∧ (fail ≠ none → v.err.getLsbD 7 = true → bfld w.err 7 57 = bfld v.err 7 57 ∧ w.err.getLsbD 6 = true)
      ∧ ∀ k, k ≠ c → (s.complete c n fail flags).ctx k = s.ctx k

/-- Copies (R221 to R225): NESTW, COPYN and the events COPY_COMMAND_COMPLETE and COPY_PAGE_IN_RESUME. `NESTW` takes a good descriptor, a bad one traps
`NEST_FORMAT`; `COPYN` takes its number and a snapshot, a bad control word traps `ILLEGAL_FIELD`; a command that may start makes its
transfers. A copy between places in memory, each unit inside a line, puts every unit's bytes at its destination and changes no other byte; a piece
merged into a line that fails its check is not written, and the command fails there. The model's choices: an event whose condition fails
changes nothing (log entry 3), the field that COPYN names (45), the destination lines written at a failure (12), and a copy of
a run as one step (22); a piece into a failing line is reported (65). -/
def Obligations.Copies : Prop :=
  (∀ (f : TForm) (s : State), s.ctxOwn s.view.id.part f.ctx.toNat = false →
    (∀ a s1, Op.readS f.a 10 s = .ok (a, s1) → TrapsWith (.nestw f) s { cls := 0x04, code := 0, flo := 32, fw := 16 })
    ∧ ∀ ab c s1 s2, Op.readAB f.a f.b s = .ok (ab, s1) → Op.readS f.c 54 s1 = .ok (c, s2) →
      TrapsWith (.copyn f) s { cls := 0x04, code := 0, flo := 32, fw := 16 })
  ∧
  (∀ (f : TForm) (s s1 u : State) (a : W64) (v : Nat), Op.readS f.a 10 s = .ok (a, s1) →
    s.ctxOwn s.view.id.part f.ctx.toNat = true → Op.loadNow (BitVec.ofNat 64 (a.toNat / 64 * 64)) 64 s = .ok (.ok v, u) →
    let d : Line := BitVec.ofNat 512 v
    (nestOk d = true → ∃ t, exec (.nestw f) s = .next t ∧ OnSelf [.mem, .issue, .nests] s t ∧ t.mem = u.mem ∧ t.issue = u.issue ∧ Alters [.q] s.me t.me
      ∧ t.me.q = u.me.q ∧ SMap.get 0 t.nests f.ctx.toNat = d ∧ ∀ k, k ≠ f.ctx.toNat → SMap.get 0 t.nests k = SMap.get 0 s.nests k)
    ∧ (nestOk d = false → TrapsAfter (.nestw f) s u { cls := 0x06, code := 0x04 }))
  ∧ (∀ (f : TForm) (s s1 s2 : State) (a b c : W64), Op.readAB f.a f.b s = .ok ((a, b), s1) → Op.readS f.c 54 s1 = .ok (c, s2) →
    s.ctxOwn s.view.id.part f.ctx.toNat = true →
    let x := f.ctx.toNat
    let bad := c.toNat / 256 ≠ 0 ∨ bfld c 6 2 = 3 ∨ bfld c 4 2 = 3 ∨ 12 < bfld c 0 4
    (bad → TrapsWith (.copyn f) s { cls := 0x04, code := 0, flo := 54, fw := 6, va := c })
    ∧ ∀ l, Dst8 s f.d 16 l → ¬bad → s.copiesOf x < 64 → (bfld c 4 2 = 2 → s.view.pending = false ∧ s.view.landed s.now = true) →
      ∃ t, exec (.copyn f) s = .next t ∧ Commands [.copies] 3 s t x l
        ∧ t.copies = s.copies ++ [{ ctx := x, seq := (nextNumber s x).toNat, iss := .strand s.cur s.view.id s.view.fr,
                                    gate := some s.me.q.next, pasid := s.view.id.pasid.toNat, nest := SMap.get 0 s.nests x, src := a,
                                    dst := b, ctl := c, stalled := false,
                                    units := if bfld c 4 2 = 2 ∨ bfld c 6 2 = 2 then (List.range s.view.win.f).map s.view.unit else [] }])
  ∧ (∀ (ctx : Nat) (s : State), ∃ t u, exec (.copyPageInResume ctx) s = .next t ∧ t = u.retryStarts.fabTick ∧ Changes [.copies, .fab] s u
      ∧ u.copies = s.copies.map (fun c => if c.ctx = ctx then { c with stalled := false } else c)
      ∧ u.fab.cmds = s.fab.cmds.map fun c => if c.ctx = ctx then { c with stalled := false } else c)
  ∧ (∀ (ctx n : Nat) (s : State),
    ((∀ c ∈ s.copies, ¬(c.ctx = ctx ∧ c.seq = n)) → exec (.copyCommandComplete ctx n) s = .next s)
    ∧ ∀ c, (s.copies.find? fun c => c.ctx = ctx && c.seq = n) = some c →
      (c.stalled = true ∨ s.mayStart c.iss c.gate = false → exec (.copyCommandComplete ctx n) s = .next s)
      ∧ (c.stalled = false → s.mayStart c.iss c.gate = true →
        (c.sent = false → ∃ t, exec (.copyCommandComplete ctx n) s = .next t ∧ t = s.copyRun c)
        ∧ (c.sent = true → (∀ o ∈ s.fab.outs, o.org ≠ .cmd ctx n) →
            ∃ t, exec (.copyCommandComplete ctx n) s = .next t ∧ t = s.copyEnd c)
        ∧ (c.sent = true → (∃ o ∈ s.fab.outs, o.org = .cmd ctx n) → exec (.copyCommandComplete ctx n) s = .next s)))
  ∧ (∀ (s : State) (sid part : Nat) (srcs : List Store) (p : Piece), p.space = 0 → (∀ l, l ∈ linesOf p.addr p.len → s.mem.lineBad l = false) →
    (∀ i, i < p.len → overlaps srcs 0 (p.addr + i) = false) → s.statusHits [(p.addr, p.len)] = [] →
    BytesPut s.mem (s.putPiece sid part srcs p).mem p.addr p.len p.val ∧ Changes [.mem, .free] s (s.putPiece sid part srcs p))
  ∧ (∀ (p : Plan) (part sid : Nat) (x : Piece) (s : State),
    let fails := x.len < 64 ∧ ((x.space = 0 ∧ s.mem.lineBad (x.addr / 64) = true)
      ∨ (x.space = 1 ∧ x.addr / 64 ∈ ((s.strand? sid).getD {}).scrBad))
    (¬fails → p.put part sid x s = { p with st := s, pieces := p.pieces ++ [x] })
    ∧ (fails → (p.put part sid x s).pieces = p.pieces ∧ (p.put part sid x s).fail = some (p.fail.getD (2, 0))
      ∧ (x.space, x.addr / 64) ∈ (p.put part sid x s).lost ∧ (x.space = 0 → (p.put part sid x s).st = s.lineEvent part (x.addr / 64)))
    ∧ ∀ n, (p.fail = none → p.kept n = p.pieces) ∧ ∀ y ∈ p.kept n, y ∈ p.pieces ∧ (p.fail ≠ none → (y.space, y.addr / 64) ∉ p.lost))
  ∧ ∀ (s : State) (c : CopyCmd) (g h : Nat → Nat),
    let u := 2 ^ bfld c.ctl 0 4
    let n := nestCount c.nest
    let so (t : Nat) : Nat := (BitVec.ofInt 64 ((c.src.toNat : Int) + nestOffAt c.nest 0 t)).toNat
    let d (t : Nat) : Nat := (BitVec.ofInt 64 ((c.dst.toNat : Int) + nestOffAt c.nest 1 t)).toNat
    bfld c.ctl 4 2 = 0 → bfld c.ctl 6 2 = 0 → (∀ e ∈ s.rlcs, e.2.queue = []) →
    (∀ t, t < n → d t % 64 + u ≤ 64 ∧ Reaches s c.pasid (so t) u .read (g t) ∧ Reaches s c.pasid (d t) u .write (h t)
      ∧ ∀ l, l ∈ linesOf (g t) u ++ linesOf (h t) u → s.mem.lineBad l = false) →
    (∀ t k, t < n → k < n → (h t + u ≤ g k ∨ g k + u ≤ h t) ∧ (t ≠ k → h t + u ≤ h k ∨ h k + u ≤ h t)) →
    ∃ v : State, s.copyRun c = v.copyEnd { c with fail := none, sent := true } ∧ Changes [.mem, .free] s v
      ∧ (∀ t, t < n → ∀ k, k < u → v.mem.byte (h t + k) = s.mem.byte (g t + k))
      ∧ ∀ a, (∀ t, t < n → ¬(h t ≤ a ∧ a < h t + u)) → v.mem.byte a = s.mem.byte a

/-! ### The cube -/

/-- The words that prepare the cube (R228, R232, R233, R242, R243, R245, R246, R249): CNEST, CDESC, CMODE, CZERO, CCODE and CCODESWAP. Each
writes what it names and nothing else; a bad nest, a bad descriptor field, a slot that is not there trap. The order of the checks of
`CDESC` is the order in which R243 lists them (log entry 38); the fields that CDESC and CCODE name are log entry 45, and that CMODE waits for
multiply commands alone is log entry 66. -/
def Obligations.CubeSetup : Prop :=
  (∀ (f : LForm) (s s1 u : State) (a : W64) (v : Nat), Op.readS f.a 10 s = .ok (a, s1) →
    Op.loadNow (BitVec.ofNat 64 (a.toNat / 64 * 64)) 64 s = .ok (.ok v, u) →
    let d : Line := BitVec.ofNat 512 v
    (nestOk d = true → ∃ t, exec (.cnest f) s = .next t ∧ OnSelf [.mem, .issue] s t ∧ t.mem = u.mem ∧ t.issue = u.issue ∧ Alters [.q, .shNest] s.me t.me
      ∧ t.me.q = u.me.q ∧ t.me.shNest = d)
    ∧ (nestOk d = false → TrapsAfter (.cnest f) s u { cls := 0x06, code := 0x04 }))
  ∧ (∀ (f : LForm) (s s1 s2 s3 s4 : State) (ss base rs sva : W64), Op.readS f.d 16 s = .ok (ss, s1) → Op.readS f.a 10 s1 = .ok (base, s2) →
    Op.readS f.b 4 s2 = .ok (rs, s3) → Op.readS f.c 54 s3 = .ok (sva, s4) →
    let layout := bfld f.mod 14 2
    let face := f.mod.getLsbD 13
    let good := base.toNat % 64 = 0 ∧ (face = true → base.toNat < 0x380000) ∧ rs.toNat < 2 ^ 32 ∧ ss.toNat < 2 ^ 32 ∧ rs.toNat % 64 = 0
      ∧ (layout = 2 → sva.toNat % 4 = 0 ∧ ss.toNat % 4 = 0) ∧ (layout ≠ 2 → f.c = 60 ∧ f.d = 60)
    (good → ∃ t x, exec (.cdesc f) s = .next t ∧ Sets [.shA, .shB] s t
      ∧ (if f.mod.getLsbD 16 then t.me.shB = x ∧ t.me.shA = s.me.shA else t.me.shA = x ∧ t.me.shB = s.me.shB)
      ∧ dType x = bfld f.mod 17 5 ∧ dTable x = bfld f.mod 9 4 ∧ dLayout x = layout ∧ dFace x = face ∧ dRstride x = rs.toNat
      ∧ dSstride x = ss.toNat ∧ dBase x = base.toNat ∧ dSva x = sva.toNat ∧ bfld x 0 4 = 0 ∧ bfld x 16 48 = 0)
    ∧ (¬good → ∃ lo v, TrapsWith (.cdesc f) s { cls := 0x04, code := 0, flo := lo, fw := 6, va := v }
        ∧ ((lo = 10 ∧ v = base) ∨ (lo = 4 ∧ v = rs) ∨ (lo = 16 ∧ v = ss) ∨ (lo = 54 ∧ v = sva)))
    ∧ (base.toNat % 64 ≠ 0 → TrapsWith (.cdesc f) s { cls := 0x04, code := 0, flo := 10, fw := 6, va := base }))
  ∧ (∀ (f : LForm) (s : State),
    let pl := f.mod.getLsbD 13
    let picked (l : Nat) : Bool := decide (l < s.nl) && (decide (l < 8) && f.mod.getLsbD (14 + l))
    ((∃ c ∈ s.cube.cmds, ∃ l ∈ c.layers, picked l = true ∧ s.planeOf l ≠ pl) → Stalls (.cmode f) s)
    ∧ ((∀ c ∈ s.cube.cmds, ∀ l ∈ c.layers, picked l = true → s.planeOf l = pl) →
      ∃ t, exec (.cmode f) s = .next t ∧ Changes [.cube] s t ∧ t.cube = { s.cube with mode := t.cube.mode }
        ∧ (∀ l, l < 8 → t.planeOf l = if picked l then pl else s.planeOf l)
        ∧ (t.cube.mode.getLsbD 8 = if pl then s.cube.mode.getLsbD 8 else f.mod.getLsbD 12)
        ∧ bfld t.cube.mode 9 55 = bfld s.cube.mode 9 55))
  ∧ (∀ (f : LForm) (s : State),
    let src := bfld f.mod 15 7
    (s.slotHere src = false → TrapsWith (.czero f) s { cls := 0x0D, code := 0x01 })
    ∧ (s.slotHere src = true → ∃ t, exec (.czero f) s = .next t ∧ Changes [.cube] s t
      ∧ (s.cube.cmds = [] → t.cube.cmds = [] ∧ ∀ x i j, i < 128 → j < 128 → t.slotAt x i j = if x = src then 0 else s.slotAt x i j)
      ∧ ((∀ c ∈ s.cube.cmds, c.seq ≠ 0) → (∃ c ∈ s.cube.cmds, c.slotUse = some src ∧ c.sent = false) →
          t.cube.slots = s.cube.slots ∧ ∃ c ∈ t.cube.cmds, c.kind = .zero ∧ c.slot = src)))
  ∧ (∀ (f : LForm) (s s1 : State) (a : W64), Op.readS f.a 10 s = .ok (a, s1) →
    (a.toNat % 32 ≠ 0 → TrapsWith (.ccode f) s { cls := 0x04, code := 0, flo := 10, fw := 6, va := a })
    ∧ ∀ v u, a.toNat % 32 = 0 → Op.loadNow a 32 s = .ok (.ok v, u) → ∃ t, exec (.ccode f) s = .next t ∧ OnSelf [.mem, .issue, .cube] s t
      ∧ t.mem = u.mem ∧ t.issue = u.issue ∧ Alters [.q] s.me t.me ∧ t.me.q = u.me.q ∧ t.cube = { s.cube with shadow := t.cube.shadow }
      ∧ ∀ k, SMap.get 0 t.cube.shadow k = if k = bfld f.mod 18 4 then BitVec.ofNat 256 v else SMap.get 0 s.cube.shadow k)
  ∧ ∀ (f : LForm) (s : State), ∃ t, exec (.ccodeswap f) s = .next t ∧ Changes [.cube] s t ∧ t.cube = { s.cube with active := t.cube.active }
      ∧ ∀ k, SMap.get 0 t.cube.active k =
          if k < 16 ∧ f.mod.getLsbD (6 + k) = true then SMap.get 0 s.cube.shadow k else SMap.get 0 s.cube.active k

/-- The words that issue cube commands (R229, R236, R244, R247, R248, R252): CUBE.MM, CPLANE, CFILL and CDRAIN. Each takes its number and
stands last among the cube's commands with its operands, the nest, the descriptors and the codebooks as they are; what the rules
forbid traps and issues nothing. Which of a, b and c `CFILL` and `CDRAIN` name first is log entry 38, the field and its value log entry 45; that a
type of the precision ladder which resolves to a format the cube has not traps `ILLEGAL_FIELD` is log entry 67. -/
def Obligations.CubeCommands : Prop :=
  let issues (i : Instr) (s : State) (ctx : Nat) (l : Loc) (c : CubeCmd) : Prop :=
    (s.cube.cmds.filter fun x => x.ctx = ctx && x.seq ≠ 0).length < 64 → ∃ t, exec i s = .next t
      ∧ Commands [.cube] 1 s t (4096 + ctx) l
      ∧ t.cube = { s.cube with cmds := s.cube.cmds ++ [{ c with seq := (nextNumber s (4096 + ctx)).toNat }] }
  let multiplies (i : Instr) (plane : Bool) (f : LForm) (s : State) (sel slot : Nat) : Prop :=
    let ctx := bfld f.b 0 3
    let m := bfld f.mod 7 7 + 1
    let n := bfld f.mod 0 7 + 1
    let k := f.c.toNat + 1
    let wc := bfld f.b 4 2
    let nest := s.view.shNest
    (nestOk nest = false → TrapsWith i s { cls := 0x0D, code := 0x02 })
    ∧ (nestOk nest = true → dLayout s.view.shA ≠ 1 → isLadder (dType s.view.shA) = true →
        (∀ t, s.resolve (dType s.view.shA) = some t → t ∉ [0, 4, 8, 18, 19, 20, 21, 22, 23, 24]) → TrapsWith i s { cls := 0x04, code := 0 })
    ∧ ∀ a b, nestOk nest = true → Op.resolveDesc s.view.shA s = .ok (a, s) → Op.resolveDesc s.view.shB s = .ok (b, s) →
      let ls := if plane then [sel] else (List.range s.nl).filter fun x => sel.testBit x
      let layersOk := if plane then sel < s.nl ∧ s.planeOf sel = true else ls ≠ [] ∧ ∀ x ∈ ls, s.planeOf x = false
      let w := if wc = 0 then 8 else if wc = 1 then 4 else if wc = 2 then 16
        else if dLayout a = 1 then opWidth (dType b) else opWidth (dType a)
      let widthsOk := ¬(wc = 3 ∧ dLayout a = 1 ∧ dLayout b = 1) ∧ (dLayout a ≠ 1 → opWidth (dType a) = w)
        ∧ (dLayout b ≠ 1 → opWidth (dType b) = w)
      let stridesOk := ∀ j x, j < 2 → x < 6 → nestStride nest j x * 2 ^ nestScale nest j % 64 = 0
      let facesOk := faceBadRange nest 0 a m ls.length k = false ∧ faceBadRange nest 1 b n ls.length k = false
      (¬layersOk → TrapsWith i s { cls := 0x0D, code := 0x01 })
      ∧ (layersOk → wc = 3 → dLayout a = 1 → dLayout b = 1 → TrapsWith i s { cls := 0x0D, code := 0x02 })
      ∧ (layersOk → ¬(wc = 3 ∧ dLayout a = 1 ∧ dLayout b = 1) → ¬widthsOk → TrapsWith i s { cls := 0x07, code := 0x02 })
      ∧ (layersOk → widthsOk → ¬(stridesOk ∧ facesOk) → TrapsWith i s { cls := 0x0D, code := 0x02 })
      ∧ ∀ l, layersOk → widthsOk → stridesOk → facesOk → Dst8 s f.d 16 l →
        issues i s ctx l
          { ctx := ctx, seq := 0, iss := .strand s.cur s.view.id s.view.fr, gate := some s.me.q.next, pasid := s.view.id.pasid.toNat,
            kind := .mm ls plane (!plane && s.cube.mode.getLsbD 8) w m n k, slot := slot, nest := nest, dA := a, dB := b,
            tables := s.cube.active }
  (∀ (f : LForm) (s : State), multiplies (.cubeMm f) false f s (bfld f.mod 14 8) (bfld f.a 0 5))
  ∧ (∀ (f : LForm) (s : State),
      multiplies (.cplane f) true f s (bfld f.mod 14 3) (0x40 + bfld f.mod 14 3 * 8 + bfld f.a 0 3))
  ∧ (∀ (f : LForm) (s s1 s2 : State) (a b c : W64), Op.readAB f.a f.b s = .ok ((a, b), s1) → Op.readS f.c 54 s1 = .ok (c, s2) →
    let layer := bfld f.mod 15 3
    let lenOk := c.toNat % 64 = 0 ∧ c ≠ 0 ∧ b.toNat + c.toNat ≤ 0x380000
    (s.nl ≤ layer → TrapsWith (.cfill f) s { cls := 0x0D, code := 0x01 })
    ∧ (layer < s.nl → a.toNat % 64 ≠ 0 → TrapsWith (.cfill f) s { cls := 0x04, code := 0, flo := 10, fw := 6, va := a })
    ∧ (layer < s.nl → a.toNat % 64 = 0 → b.toNat % 64 ≠ 0 →
        TrapsWith (.cfill f) s { cls := 0x04, code := 0, flo := 4, fw := 6, va := b })
    ∧ (layer < s.nl → a.toNat % 64 = 0 → b.toNat % 64 = 0 → ¬lenOk →
        TrapsWith (.cfill f) s { cls := 0x04, code := 0, flo := 54, fw := 6, va := c })
    ∧ ∀ l, layer < s.nl → a.toNat % 64 = 0 → b.toNat % 64 = 0 → lenOk → Dst8 s f.d 16 l →
      issues (.cfill f) s (bfld f.mod 19 3) l
        { ctx := bfld f.mod 19 3, seq := 0, iss := .strand s.cur s.view.id s.view.fr, gate := some s.me.q.next,
          pasid := s.view.id.pasid.toNat, kind := .fill a.toNat b.toNat c.toNat (f.mod.getLsbD 18) layer, tables := s.cube.active })
  ∧ ∀ (f : LForm) (s s1 : State) (a b : W64), Op.readAB f.a f.b s = .ok ((a, b), s1) →
    let src := bfld f.mod 15 7
    let m := bfld f.mod 8 7 + 1
    let n := bfld f.mod 1 7 + 1
    let space := bfld f.c 1 2
    (a.toNat % 4 ≠ 0 → TrapsWith (.cdrain f) s { cls := 0x04, code := 0, flo := 10, fw := 6, va := a })
    ∧ (a.toNat % 4 = 0 → b.toNat % 4 ≠ 0 → TrapsWith (.cdrain f) s { cls := 0x04, code := 0, flo := 4, fw := 6, va := b })
    ∧ (a.toNat % 4 = 0 → b.toNat % 4 = 0 → s.slotHere src = false → TrapsWith (.cdrain f) s { cls := 0x0D, code := 0x01 })
    ∧ ∀ l, a.toNat % 4 = 0 → b.toNat % 4 = 0 → s.slotHere src = true → Dst8 s f.d 16 l →
      issues (.cdrain f) s (bfld f.c 3 3) l
        { ctx := bfld f.c 3 3, seq := 0, iss := .strand s.cur s.view.id s.view.fr, gate := some s.me.q.next,
          pasid := s.view.id.pasid.toNat, slot := src, tables := s.cube.active,
          kind := .drain a.toNat (if b = 0 then 4 * n else b.toNat) space (f.c.getLsbD 0) m n
            (if space = 2 then (List.range s.view.win.f).map s.view.unit else []) }

/-- Cube commands run (R66, R74, R75, R77, R217, R232, R250 to R252, R255 to R258): the events CUBE_COMMAND_COMPLETE, CUBE_STOP, CUBE_WAITING_RESTART
and STEADY_WINDOW_SAMPLE, and CRPROG, CRESUME and CRESUME.abandon. Only a command that may start runs; on the integer path a pass adds the
products of its rows to the slot modulo 2^32, on the floating path it adds the tree sum of the products to the slot in `f32`; a fill puts memory's
lines in its face; a drain puts element i, j of its slot at its address; a stop of a live strand's command waits as an engine trap with the
command STOPPED. The model's choices: an event whose condition fails changes nothing (log entry 3), a fill or drain is one step (22), the order of
the loads (30), and a mismatch of redundant passes that comes with the event (68). -/
def Obligations.CubeRuns : Prop :=
  (∀ (x : Nat) (s : State),
    (s.cubeNext x = none → Unchanged (.cubeCommandComplete x) s ∧ ∀ b, Unchanged (.cubeStop x b) s)
    ∧ ∀ c, s.cubeNext x = some c →
      (∀ va off len face layer, c.kind = .fill va off len face layer →
        ∃ t, exec (.cubeCommandComplete x) s = .next t ∧ t = s.fillRun c va off len face layer)
      ∧ (∀ base stride space clr m n units, c.kind = .drain base stride space clr m n units →
        (c.sent = false → ∃ t, exec (.cubeCommandComplete x) s = .next t ∧ t = s.drainRun c base stride space clr m n units)
        ∧ (c.sent = true → (∀ o ∈ s.fab.outs, o.org ≠ .cmd (4096 + x) c.seq) → ∃ t, exec (.cubeCommandComplete x) s = .next t
            ∧ t = s.cubeEnd c c.fail (c.fail.getD (0, 0)).1 (c.fail.getD (0, 0)).2)
        ∧ (c.sent = true → (∃ o ∈ s.fab.outs, o.org = .cmd (4096 + x) c.seq) → Unchanged (.cubeCommandComplete x) s))
      ∧ ∀ ls plane red w m n k, c.kind = .mm ls plane red w m n k →
        let left := c.left ls.length k
        (∀ c1 s1, State.cubeRun ls w m n k left none c s = .done c1 s1 →
          ∃ t, exec (.cubeCommandComplete x) s = .next t ∧ t = s1.cubeEnd c1 none 0 0)
        ∧ (∀ c1 s1 b, (b && red) = false → State.cubeRun ls w m n k left none c { s with free := s.free + 1 } = .stopped c1 s1 →
          ∃ t, exec (.cubeStop x b) s = .next t ∧ t = s1.cubeStopped c1)
        ∧ ∀ c1 va s1 b, (b && red) = false → State.cubeRun ls w m n k left none c { s with free := s.free + 1 } = .waits c1 va s1 →
          ∃ t, exec (.cubeStop x b) s = .next t ∧ t = s1.cubeWaits c1 va)
  ∧ (∀ (s : State) (c : CubeCmd) (w m n cnt : Nat) (vals : List Nat), c.isInt = true → dLayout c.dA = 0 → dLayout c.dB = 0 → 0 < cnt →
    m ≤ 128 → n ≤ 128 →
    let lane_ (d : BitVec 256) (row e : Nat) : Int := num (dType d) (row / 2 ^ (w * e) % 2 ^ w)
    let at_ (r q : Nat) : Nat := vals.getD (r * (m + n) + q) 0
    (w = opWidth (dType c.dA) ∧ w = opWidth (dType c.dB) ∧ w ≠ 0) →
    ∀ i j, i < 128 → j < 128 → (s.addPass c w m n cnt vals).1.slotAt c.slot i j =
      if i < m ∧ j < n then
        residue 32 ((s.slotAt c.slot i j : Int)
          + ((List.range cnt).flatMap fun r => (List.range (512 / w)).map fun e => lane_ c.dA (at_ r i) e * lane_ c.dB (at_ r (m + j)) e).sum)
      else s.slotAt c.slot i j)
  ∧ (∀ (s : State) (c : CubeCmd) (w m n cnt : Nat) (vals : List Nat), c.isInt = false → 0 < cnt → m ≤ 128 → n ≤ 128 →
    ∀ i j, i < 128 → j < 128 → ∃ p, passSum c w m n cnt vals i j = some p ∧ (s.addPass c w m n cnt vals).1.slotAt c.slot i j =
      if i < m ∧ j < n then (roundOp {} 17 (addExact false (unpackVal 0 17 (s.slotAt c.slot i j)) (unpackVal 0 17 p.1))).1
      else s.slotAt c.slot i j)
  ∧ (∀ (c : CubeCmd) (w m n i j : Nat) (vals : List Nat), c.isInt = false → dLayout c.dA = 0 → dLayout c.dB = 0 →
    let value (d : BitVec 256) (row e : Nat) : FVal := unpackVal (SMap.get 0 c.tables (dTable d)).toNat (dType d) (row / 2 ^ (w * e) % 2 ^ w)
    let sum := tree32 7 ((List.range (512 / w)).map fun e => mulExact (value c.dA (vals.getD i 0) e) (value c.dB (vals.getD (m + j) 0) e))
    passSum c w m n 1 vals i j = some ((roundTo {} 17 sum.1).1, sum.2))
  ∧ (∀ (s : State) (c : CubeCmd) (va off len layer : Nat) (face : Bool) (g : Nat → Nat),
    (∀ t, t < len / 64 → Reaches s c.pasid ((va + 64 * t) % 2 ^ 64) 64 .read (g t) ∧ ∀ l, l ∈ linesOf (g t) 64 → s.mem.lineBad l = false) →
    ∃ v : State, s.fillRun c va off len face layer = v.cubeEnd c none 0 0 ∧ Changes [.cube, .free, .mem] s v ∧ v.mem = { s.mem with hits := v.mem.hits }
      ∧ v.cube = { s.cube with faces := v.cube.faces, faceBad := v.cube.faceBad }
      ∧ (∀ t, t < len / 64 → let l := faceLine layer (if face then 1 else 0) (off + 64 * t)
        l ∉ v.cube.faceBad ∧ ∀ k, k < 64 → bfld (SMap.get 0 v.cube.faces l) (8 * k) 8 = (s.mem.byte (g t + k)).toNat)
      ∧ ∀ l, (∀ t, t < len / 64 → l ≠ faceLine layer (if face then 1 else 0) (off + 64 * t)) →
        SMap.get 0 v.cube.faces l = SMap.get 0 s.cube.faces l ∧ (l ∈ v.cube.faceBad ↔ l ∈ s.cube.faceBad))
  ∧ (∀ (s : State) (c : CubeCmd) (base stride m n : Nat) (clr : Bool) (units : List Nat) (h : Nat → Nat), n ≠ 0 →
    (∀ e ∈ s.rlcs, e.2.queue = []) →
    (∀ i, i < m → let d := (base + i * stride) % 2 ^ 64
      d % 64 + 4 * n ≤ 64 ∧ Reaches s c.pasid d (4 * n) .write (h i)
      ∧ ∀ l, l ∈ linesOf (h i) (4 * n) → s.mem.lineBad l = false) →
    (∀ i j, i < m → j < m → i ≠ j → h i + 4 * n ≤ h j ∨ h j + 4 * n ≤ h i) →
    ∃ v : State, s.drainRun c base stride 0 clr m n units = (if clr then v.slotZero c.slot else v).cubeEnd c none 0 0 ∧ Changes [.mem, .free] s v
      ∧ (∀ i j k, i < m → j < n → k < 4 → (v.mem.byte (h i + 4 * j + k)).toNat = byteOf (s.slotAt c.slot i j % 2 ^ 32) k)
      ∧ (∀ a, (∀ i, i < m → ¬(h i ≤ a ∧ a < h i + 4 * n)) → v.mem.byte a = s.mem.byte a)
      ∧ ∀ x i j, i < 128 → j < 128 → (v.slotZero c.slot).slotAt x i j = if x = c.slot then 0 else s.slotAt x i j)
  ∧ (∀ (s : State) (c : CubeCmd) (sid : Nat) (id : Ident) (fr : Machine.Frames) (y : Strand), c.iss = .strand sid id fr → s.strand? sid = some y →
    y.id.state ≠ 7 →
    ∃ e, (s.cubeStopped c).strand? sid = some { y with trap := { y.trap with pending := y.trap.pending ++ [e] } }
      ∧ e.ctx = 4096 + c.ctx ∧ e.seq = c.seq ∧ e.info.cls = (if 0x40 ≤ c.code then 0x07 else 0x0D) ∧ e.info.code = c.code % 0x40
      ∧ e.info.aux0 = BitVec.ofNat 64 c.seq ∧ bfld e.info.aux1 48 16 = (4096 + c.ctx) % 65536)
  ∧ (∀ (x : Nat) (s : State), ∃ t u, exec (.cubeWaitingRestart x) s = .next t ∧ t = u.retryStarts ∧ Changes [.cube] s u
    ∧ u.cube = { s.cube with cmds := s.cube.cmds.map fun c =>
        if c.ctx = x && c.st = 3 then { c with st := 1, code := 0, mcode := 0, fva := 0 } else c })
  ∧ (∀ (f : LForm) (s : State),
    let x := bfld f.mod 19 3
    (s.cubeHalted x = none → Unchanged (.cresume f) s ∧ Unchanged (.cresumeAbandon f) s)
    ∧ ∀ c, s.cubeHalted x = some c →
      (∃ t, exec (.cresume f) s = .next t ∧ Changes [.cube] s t
        ∧ t.cube = { s.cube with cmds := s.cube.cmds.map fun d =>
            if d.ctx = c.ctx && d.seq = c.seq && c.seq ≠ 0 then { c with st := 1, code := 0, mcode := 0, fva := 0 } else d })
      ∧ ∃ t, exec (.cresumeAbandon f) s = .next t ∧ t = s.cubeEnd c (some (6, c.code)) 0 0)
  ∧ (∀ (f : LForm) (s : State) (l : Loc), Dst8 s f.d 16 l →
    let x := bfld f.mod 19 3
    let w := bfld f.mod 17 2
    ∃ t v, exec (.crprog f) s = .next t ∧ Delivers [] [] 1 s t l v ∧ t.me.files.lx.toNat = v ∧ t.me.files.lxWait = none
      ∧ (s.cubeShown x = none → v = 0)
      ∧ ∀ c, s.cubeShown x = some c → let n := BitVec.ofNat 64 v
        let ix (i : Nat) : Nat := (nestIdx c.nest 6 0 c.iter).getD i 0 % 65536
        if w = 0 then bfld n 62 2 = c.st % 4 ∧ bfld n 54 8 = c.code % 256 ∧ bfld n 46 8 = c.mcode % 256 ∧ bfld n 44 2 = c.operand % 4
            ∧ bfld n 37 7 = c.row % 128 ∧ bfld n 0 32 = c.seq % 2 ^ 32
        else if w = 1 then bfld n 0 16 = ix 0 ∧ bfld n 16 16 = ix 1 ∧ bfld n 32 16 = ix 2 ∧ bfld n 48 16 = ix 3
        else bfld n 0 16 = ix 4 ∧ bfld n 16 16 = ix 5 ∧ bfld n 40 8 = c.step % 256 ∧ bfld n 48 8 = c.pass % 256)
  ∧ ∀ (temps : List Nat) (s : State), ∃ t, exec (.steadyWindowSample temps) s = .next t ∧ Changes [.cube] s t
    ∧ t.cube = { s.cube with step := t.cube.step, temp := t.cube.temp, chg := t.cube.chg, thr := t.cube.thr }
    ∧ ∀ l, l < 8 → let v := temps.getD (bfld s.cube.map (4 * l) 4) 0
      let old := bfld s.cube.step (4 * l) 3
      let new := bfld t.cube.step (4 * l) 3
      let t0 : Int := bfld s.cube.cfg 0 8
      let d : Int := bfld s.cube.cfg 8 4
      let h : Int := bfld s.cube.cfg 12 4
      if l < s.nl then
        new = (if old < 7 ∧ t0 + d * old ≤ (v : Int) then old + 1
          else if 0 < old ∧ (v : Int) < t0 + d * ((old : Int) - 1) - h then old - 1 else old)
        ∧ bfld t.cube.temp (8 * l) 8 = min v 255
        ∧ SMap.get 0 t.cube.thr l = SMap.get 0 s.cube.thr l + BitVec.ofNat 64 (128 * old)
      else new = old ∧ bfld t.cube.temp (8 * l) 8 = bfld s.cube.temp (8 * l) 8 ∧ SMap.get 0 t.cube.thr l = SMap.get 0 s.cube.thr l

/-! ### The fabric -/

/-- Fabric commands at issue (R217, R259, R261, R264, R269 to R271, R276): FST, FSTV, FATOM, FFADD, FREQ and FDRAIN. Each takes its number and stands
last among the engine's commands with its operands; a context of another partition and a bad operand trap and send nothing. The field that
the trap of an operand names and its value are log entry 45; that a comes before b, and b before c, where several fail is log entry 38. -/
def Obligations.FabricSends : Prop :=
  (∀ (i : Instr) (f : LForm) (s : State), i ∈ [Instr.fst f, .fstv f, .fatom f, .ffadd f, .freq f, .fdrain f] →
    (∃ d s1 a b s2 c s3, Op.readS f.d 16 s = .ok (d, s1) ∧ Op.readAB f.a f.b s1 = .ok ((a, b), s2) ∧ Op.readS f.c 54 s2 = .ok (c, s3)) →
    ¬OwnsFab s (bfld f.mod 16 6) → TrapsWith i s { cls := 0x04, code := 0, flo := 48, fw := 6 })
  ∧ (∀ (f : LForm) (s s1 s2 : State) (d a b : W64), Op.readS f.d 16 s = .ok (d, s1) → Op.readAB f.a f.b s1 = .ok ((a, b), s2) →
    let x := bfld f.mod 16 6
    OwnsFab s x →
    (f.b ≠ 60 → ¬BarrierOk a b → TrapsWith (.fst f) s (fieldTrap 4 b))
    ∧ ((f.b = 60 ∨ BarrierOk a b) → (s.fab.cmds.filter fun c => c.ctx = 8192 + x).length < 64 → ∃ t, exec (.fst f) s = .next t
      ∧ OnSelf [.ctxs, .fab] s t ∧ Alters [.files, .q] s.me t.me ∧ TookNumber s t (8192 + x) ∧ LastKept [1] s.me t.me
      ∧ t.me.files.o = s.me.files.o ∧ t.me.files.lx = nextNumber s (8192 + x) ∧ t.me.files.lxWait = none
      ∧ t.me.q = { s.me.q with next := s.me.q.next + 1, accs := s.me.q.accs ++ [cmdAccess s] }
      ∧ t.fab = { s.fab with cmds := s.fab.cmds ++ [fabCommand s x (f.mod.getLsbD 10) (.store a (bfld f.mod 11 5) d b)] }))
  ∧ (∀ (f : LForm) (s s1 s2 : State) (a b c : W64), Op.readAB f.a f.b s = .ok ((a, b), s1) → Op.readS f.c 54 s1 = .ok (c, s2) →
    let x := bfld f.mod 16 6
    OwnsFab s x →
    (¬(s.isLocal a.toNat = true ∧ a.toNat % 64 = 0) → TrapsWith (.fstv f) s (fieldTrap 10 a))
    ∧ (s.isLocal a.toNat = true → a.toNat % 64 = 0 → b.toNat % 64 ≠ 0 → TrapsWith (.fstv f) s (fieldTrap 4 b))
    ∧ (s.isLocal a.toNat = true → a.toNat % 64 = 0 → b.toNat % 64 = 0 → f.c ≠ 60 → ¬BarrierOk b c →
        TrapsWith (.fstv f) s (fieldTrap 54 c))
    ∧ ∀ l, s.isLocal a.toNat = true → a.toNat % 64 = 0 → b.toNat % 64 = 0 → (f.c = 60 ∨ BarrierOk b c) → Dst8 s f.d 16 l →
      FabIssues [] (.fstv f) s x l (f.mod.getLsbD 15) (.lines a b c (bfld f.mod 0 15 + 1)))
  ∧ (∀ (f : LForm) (s s1 s2 : State) (a b c : W64), Op.readAB f.a f.b s = .ok ((a, b), s1) → Op.readS f.c 54 s1 = .ok (c, s2) →
    let x := bfld f.mod 16 6
    let typ := bfld f.mod 11 5
    let reply := if f.c = 60 then none else some c
    OwnsFab s x → ∀ i fn comb, (i = .fatom f ∧ fn = bfld f.mod 7 3 ∧ comb = false) ∨ (i = .ffadd f ∧ fn = 0 ∧ comb = true) →
    (a.toNat % (tyW typ / 8) ≠ 0 → TrapsWith i s (fieldTrap 10 a))
    ∧ (a.toNat % (tyW typ / 8) = 0 → f.c ≠ 60 → ¬(s.isLocal c.toNat = true ∧ c.toNat % 8 = 0) → TrapsWith i s (fieldTrap 54 c))
    ∧ ∀ l, a.toNat % (tyW typ / 8) = 0 → (f.c = 60 ∨ (s.isLocal c.toNat = true ∧ c.toNat % 8 = 0)) → Dst8 s f.d 16 l →
      FabIssues [] i s x l (f.mod.getLsbD 10) (.atom fn typ a b reply comb))
  ∧ (∀ (f : LForm) (s s1 : State) (a b : W64), Op.readAB f.a f.b s = .ok ((a, b), s1) →
    let x := bfld f.mod 16 6
    OwnsFab s x →
    (¬(s.isLocal a.toNat = true ∧ a.toNat % 64 = 0) → TrapsWith (.freq f) s (fieldTrap 10 a))
    ∧ (s.isLocal a.toNat = true → a.toNat % 64 = 0 → bfld b 22 42 ≠ 0 ∨ bfld b 11 5 ≠ 0 → TrapsWith (.freq f) s (fieldTrap 4 b))
    ∧ ∀ l, s.isLocal a.toNat = true → a.toNat % 64 = 0 → bfld b 22 42 = 0 → bfld b 11 5 = 0 → Dst8 s f.d 16 l →
      FabIssues [] (.freq f) s x l false (.req a b))
  ∧ ∀ (f : LForm) (s s1 : State) (a : W64), Op.readS f.a 10 s = .ok (a, s1) →
    let x := bfld f.mod 16 6
    let p := s.part s.view.id.part
    let good := bfld a 24 40 = 0 ∧ a ≠ 0 ∧ (∀ k, k < 16 → a.getLsbD k = true → p.ual.getLsbD k = true)
      ∧ ∀ k, k < 8 → a.getLsbD (16 + k) = true → p.spn.getLsbD k = true
    OwnsFab s x → (¬good → TrapsWith (.fdrain f) s (fieldTrap 10 a))
    ∧ ∀ l, good → Dst8 s f.d 16 l → FabIssues [] (.fdrain f) s x l false
        (.drain (((List.range 24).filter fun k => a.getLsbD k).map fun k => (k, 0)))

/-- Barriers, collectives and the hold set (R215, R267, R268, R273 to R275, R277): FBAR, FBAR.add, FBWAIT, FCOLL, FCWAIT, FHOLD and FRELEASE. `FBAR`
and `FBAR.add` queue a bank-side command on the object line, which sets expected and clears the rest, or adds to expected; `FHOLD` and `FRELEASE`
take effect where they perform (log entry 39). `FBWAIT` issues with nothing of its strand before it in the queues (log entry 59). The field that
the trap of an operand names is log entry 45, that `FHOLD` and `FRELEASE` name b before a log entry 38, and that a descriptor whose type is not
listed traps is log entry 62. -/
def Obligations.BarriersAndCollectives : Prop :=
  (∀ (f : LForm) (s s1 : State) (a b : W64) (i : Instr) (op : Nat), Op.readAB f.a f.b s = .ok ((a, b), s1) →
    (i = .fbar f ∧ op = 0x22) ∨ (i = .fbarAdd f ∧ op = 0x23) →
    (a.toNat % 64 ≠ 0 → TrapsWith i s (fieldTrap 10 a))
    ∧ (a.toNat % 64 = 0 → s.isLocal a.toNat = true → ∀ g segs r u, Op.transl a 64 .write 2 s = .ok ((g :: segs, r), u) →
      ∃ t, exec i s = .next t ∧ Queued s u t .both (.bank op 7 false g (b.setWidth 512) 0 0) none false 3 false)
    ∧ (a.toNat % 64 = 0 → s.isLocal a.toNat = false →
      ∃ t, exec i s = .next t ∧ Queued s s t .both (.rbank op 7 false a (b.setWidth 512) 0 0) none false 3 false))
  ∧ (∀ (s : State) (sid : Nat) (x : Strand) (a : Access) (op : Nat) (g : Seg) (b : Line), s.strand? sid = some x →
    op = 0x22 ∨ op = 0x23 → a.act = .bank op 7 false g b 0 0 → g.pa % 64 = 0 → g.len = 64 → s.mem.lineBad (g.pa / 64) = false →
    s.statusHits [(g.pa, g.len)] = [] →
    let old := s.mem.line g.pa
    let new := (s.perform sid x a).mem.line g.pa
    (∀ e, ¬(g.pa ≤ e ∧ e < g.pa + 64) → (s.perform sid x a).mem.byte e = s.mem.byte e)
    ∧ (op = 0x22 → lineEl 64 new 0 = lineEl 64 b 0 ∧ ∀ k, 0 < k → k < 8 → lineEl 64 new k = 0)
    ∧ (op = 0x23 → lineEl 64 new 0 = (lineEl 64 old 0 + lineEl 64 b 0) % 2 ^ 64 ∧ ∀ k, 0 < k → k < 8 → lineEl 64 new k = lineEl 64 old k))
  ∧ (∀ (f : LForm) (s s1 : State) (a : W64), Op.readS f.a 10 s = .ok (a, s1) →
    (a.toNat % 64 ≠ 0 → TrapsWith (.fbwait f) s (fieldTrap 10 a))
    ∧ (a.toNat % 64 = 0 → s.isLocal a.toNat = false → TrapsWith (.fbwait f) s (memoryTrap 0x04 a 0))
    ∧ (a.toNat % 64 = 0 → s.isLocal a.toNat = true → s.view.q.accs ≠ [] → Stalls (.fbwait f) s)
    ∧ (a.toNat % 64 = 0 → s.isLocal a.toNat = true → s.view.q.accs = [] → s.me.q.accs ≠ [] → exec (.fbwait f) s = .next (s.walks.applyStop .own))
    ∧ ∀ v u, a.toNat % 64 = 0 → s.isLocal a.toNat = true → s.view.q.accs = [] → s.me.q.accs = [] → Op.loadNow a 64 s = .ok (.ok v, u) →
      (v % 2 ^ 64 ≤ v / 2 ^ 64 % 2 ^ 64 ∨ s.view.sch.waitDone = true → ∃ t, exec (.fbwait f) s = .next t ∧ OnSelf [.mem, .issue] s t
        ∧ t.mem = u.mem ∧ t.issue = u.issue ∧ Alters [.q, .sch] s.me t.me ∧ t.me.sch = { s.me.sch with waitDone := false }
        ∧ t.me.q = { u.me.q with next := s.me.q.next + 1, accs := [markAccess s s.me.q.next] })
      ∧ (v / 2 ^ 64 % 2 ^ 64 < v % 2 ^ 64 → s.view.sch.waitDone = false →
        exec (.fbwait f) s = .next ((s.setBits u.issue.walked).applyStop (.wait 2 0 a 4))))
  ∧ (∀ (f : LForm) (s s1 u : State) (a : W64) (v : Nat), Op.readS f.a 10 s = .ok (a, s1) →
    Op.loadNow (BitVec.ofNat 64 (a.toNat / 64 * 64)) 64 s = .ok (.ok v, u) →
    let x := bfld f.mod 16 6
    let d : Line := BitVec.ofNat 512 v
    let g := bfld d 32 12
    let k := SMap.get 0 s.fab.ords g + 1
    OwnsFab s x → ((s.coll x).busy = true → Stalls (.fcoll f) s) ∧ ((s.coll x).busy = false →
    (¬CollGood s d → TrapsAfter (.fcoll f) s u (fieldTrap 10 a))
    ∧ ∀ l, CollGood s d → Dst8 s f.d 16 l → (s.fab.cmds.filter fun c => c.ctx = 8192 + x).length < 64 →
      ∃ t, exec (.fcoll f) s = .next t ∧ Commands [.fab, .mem, .issue] 1 s t (8192 + x) l ∧ t.mem = u.mem ∧ t.issue = u.issue
        ∧ t.fab.cmds = s.fab.cmds ++ [fabCommand s x false (.coll d k)]
        ∧ (t.coll x = { desc := d, k := k, got := [], busy := true }) ∧ (∀ y, y ≠ x → t.coll y = s.coll y)
        ∧ SMap.get 0 t.fab.ords g = k ∧ ∀ e, e ≠ g → SMap.get 0 t.fab.ords e = SMap.get 0 s.fab.ords e))
  ∧ (∀ (f : LForm) (s s1 : State) (a : W64), Op.readS f.a 10 s = .ok (a, s1) →
    let x := bfld f.mod 16 6
    let v := s.coll x
    let cl := bfld v.desc 208 16
    let lines := s.collLines v.desc
    let done := v.desc = 0 ∨ v.busy = false ∨ ∀ i, cl * a.toNat ≤ i → i < cl * a.toNat + cl → i < lines → i ∈ v.got
    OwnsFab s x →
    (v.desc ≠ 0 → (lines + cl - 1) / cl ≤ a.toNat → TrapsWith (.fcwait f) s (fieldTrap 10 a))
    ∧ ((v.desc = 0 ∨ a.toNat < (lines + cl - 1) / cl) →
      (done ∨ s.view.sch.waitDone = true → ∃ t, exec (.fcwait f) s = .next t ∧ WaitOver s t)
      ∧ (¬done → s.view.sch.waitDone = false → Waits (.fcwait f) s 3 (8192 + x) a 5)))
  ∧ (∀ (f : LForm) (s s1 : State) (a b : W64) (i : Instr) (mode : Option Bool), Op.readAB f.a f.b s = .ok ((a, b), s1) →
    (i = .fhold f ∧ mode = some (f.mod.getLsbD 21)) ∨ (i = .frelease f ∧ mode = none) →
    let bOk := b ≠ 0 ∧ bfld b 12 52 = 0
    let aOk := bfld a 11 53 = 0 ∧ a.toNat + b.toNat ≤ 2048
    (¬bOk → TrapsWith i s (fieldTrap 4 b)) ∧ (bOk → ¬aOk → TrapsWith i s (fieldTrap 10 a))
    ∧ (bOk → aOk → ∃ t, exec i s = .next t ∧ Queued s s t .both (.hold a.toNat b.toNat mode) none false 3 false))
  ∧ ∀ (s : State) (p a b : Nat) (mode : Option Bool) (d : Nat), (∀ o ∈ s.fab.outs, ∀ k ∈ o.pkts, k.st.here = false) →
    (s.holdSet p a b mode).holdMode p d = (if a ≤ d ∧ d < a + b then mode else s.holdMode p d)
      ∧ ∀ q, q ≠ p → (s.holdSet p a b mode).holdMode q d = s.holdMode q d

/-! ### Parcels -/

/-- Parcels (R278 to R287, R289, R292): PALLOC, PFREE, PLD, PST, POST, PRECV.arm, PRECV, PSTAT and the event PARCEL_ARM_TIMEOUT. A handle names an
OPEN slot of the partition in its present generation, or the word traps; a slot that changes takes the state and the generation the rules give,
and no other slot changes. An event whose condition fails changes nothing (log entry 3). The model's choices: the end of an arm by its time limit
gives kind 3 detail 0 (log entry 58), the result of `PLD` is also the X pipe's last result (61), an extent is one of a PASID (54), the field that the
trap of an operand names is its specifier (45), and `POST` names b before c (38). -/
def Obligations.Parcels : Prop :=
  (∀ (f : LForm) (s s1 : State) (a b : W64), Op.readAB f.a f.b s = .ok ((a, b), s1) →
    let part := s.part s.view.id.part
    let free (x : Nat) : Prop := part.pcLo ≤ x ∧ x < part.pcLo + part.pcN ∧ (s.slot x).st = 0
    let pasid := s.view.id.pasid.toNat
    (¬ExtentFit s a b → TrapsWith (.palloc f) s (parcelError 0x06 0 0 a.toNat))
    ∧ (ExtentFit s a b → (∀ x, ¬free x) → TrapsWith (.palloc f) s (parcelError 0x05 0 0 0))
    ∧ ∀ x, ExtentFit s a b → free x → (∀ y, y < x → ¬free y) → let busy := s.extentBusy pasid a.toNat b.toNat
      let here (e : Access) : Bool := e.touches a.toNat b.toNat
      WaitsQuiet (.palloc f) s busy here ∧ ∀ l, ClearAhead s busy here → Dst8 s f.d 16 l →
      ∃ t, exec (.palloc f) s = .next t ∧ MarkedResult [.slots] [] s t l ((nextGen (s.slot x).gen).toNat * 65536 + x % 4096)
        ∧ SlotSet s t x { s.slot x with gen := nextGen (s.slot x).gen, st := 1, pasid := pasid, base := a, size := b.toNat,
                                        part := s.view.id.part })
  ∧ (∀ (f : LForm) (s s1 : State) (a : W64), Op.readS f.a 10 s = .ok (a, s1) →
    let x := bfld a 0 12
    let v := s.slot x
    let here (e : Access) : Bool := decide (e.slot = some x)
    HandleTraps (.pfree f) s a ∧ (HandleNames s a x → WaitsQuiet (.pfree f) s (s.slotUsed x) here
      ∧ (ClearAhead s (s.slotUsed x) here → ∃ t, exec (.pfree f) s = .next t ∧ OnSelf [.slots] s t
      ∧ Alters [.q] s.me t.me ∧ t.me.q = { s.me.q with next := s.me.q.next + 1, accs := s.me.q.accs ++ [markAccess s s.me.q.next] }
      ∧ SlotSet s t x { v with gen := nextGen v.gen, st := 0, peer := none })))
  ∧ (∀ (f : LForm) (s s1 s2 : State) (data : Vec) (a b c : W64) (l : Loc),
    (Op.readAB f.a f.b s = .ok ((a, b), s1) → (if bfld f.mod 15 2 = 2 then Dst256 s f.d 16 l else Dst8 s f.d 16 l) → HandleTraps (.pld f) s a)
    ∧ (Op.stData (bfld f.mod 15 2 = 2) f.d s = .ok (data, s1) → Op.readAB f.a f.b s1 = .ok ((a, b), s2) → HandleTraps (.pst f) s a)
    ∧ (Op.readAB f.a f.b s = .ok ((a, b), s1) → Op.readS f.c 54 s1 = .ok (c, s2) → OwnsFab s (bfld f.mod 16 6) → HandleTraps (.post f) s a))
  ∧ (∀ (f : LForm) (s s1 : State) (a b : W64) (x : Nat), Op.readAB f.a f.b s = .ok ((a, b), s1) → HandleNames s a x →
    let kind := bfld f.mod 15 2
    let typ := bfld f.mod 17 5
    let size := if kind = 2 then 256 else if kind = 1 then 4 else tyW typ / 8
    let off := (b + int64 (signed 15 (bfld f.mod 0 15))).toNat
    let v := s.slot x
    let va := (v.base.toNat + off) % 2 ^ 64
    ∀ l, (if kind = 2 then Dst256 s f.d 16 l else Dst8 s f.d 16 l) →
      (v.size < off + size → TrapsWith (.pld f) s (parcelError 0x04 (bfld a 0 32) off va))
      ∧ (off + size ≤ v.size → ∀ segs r u, Op.translPieces .read 0 (pieces va size) s = .ok ((segs, r), u) →
        (kind ≠ 1 → ∃ t, exec (.pld f) s = .next t ∧ OnSelf [.mem, .issue] s t ∧ t.mem = u.mem ∧ t.issue = u.issue ∧ Alters [.q, .files] s.me t.me
          ∧ t.me.files = { s.me.files with lxWait := some s.me.q.next }
          ∧ PassedSlot s t x .load (.load segs (decide (typ ≤ 3 ∨ typ = 8)) (if kind = 2 then 0 else tyW typ)) (some { loc := l }) true)
        ∧ (kind = 1 → ClearAhead s false (fun e => decide (e.q ≠ .store)) → u.mem.badVa segs = none →
          let n := u.mem.gather segs
          (¬(n < v.size ∨ n = 0xFFFFFFFF) → TrapsAfter (.pld f) s u (parcelError 0x04 (bfld a 0 32) n va))
          ∧ (n < v.size ∨ n = 0xFFFFFFFF → ∃ t, exec (.pld f) s = .next t ∧ OnSelf [.mem, .issue] s t ∧ t.mem = u.mem ∧ t.issue = u.issue
            ∧ Alters [.regs, .files, .rot, .q] s.me t.me ∧ Stored s.me t.me l (n % 2 ^ 64) ∧ LastKept [1] s.me t.me
            ∧ t.me.files.lx = BitVec.ofNat 64 n ∧ t.me.files.lxWait = none ∧ t.me.q.next = s.me.q.next + 1
            ∧ t.me.q.accs.map Access.bare = s.me.q.accs.map Access.bare ++ [{ markAccess s s.me.q.next with q := .load }]))))
  ∧ (∀ (f : LForm) (s s1 s2 : State) (data : Vec) (a b : W64) (x : Nat), Op.stData (bfld f.mod 15 2 = 2) f.d s = .ok (data, s1) →
    Op.readAB f.a f.b s1 = .ok ((a, b), s2) → HandleNames s a x →
    let kind := bfld f.mod 15 2
    let size := if kind = 2 then 256 else if kind = 1 then 4 else tyW (bfld f.mod 17 5) / 8
    let off := (b + int64 (signed 15 (bfld f.mod 0 15))).toNat
    let v := s.slot x
    let va := (v.base.toNat + off) % 2 ^ 64
    let n := data.toNat % 2 ^ 64
    (v.size < off + size → TrapsWith (.pst f) s (parcelError 0x04 (bfld a 0 32) off va))
    ∧ (off + size ≤ v.size → kind = 1 → ¬(n < v.size ∨ n = 0xFFFFFFFF) → TrapsWith (.pst f) s (parcelError 0x04 (bfld a 0 32) n va))
    ∧ (off + size ≤ v.size → (kind = 1 → n < v.size ∨ n = 0xFFFFFFFF) → ∀ segs r u,
      Op.translPieces .write 1 (pieces va size) s = .ok ((segs, r), u) →
      ∃ t, exec (.pst f) s = .next t ∧ OnSelf [.mem, .issue] s t ∧ t.mem = u.mem ∧ t.issue = u.issue ∧ Alters [.q] s.me t.me
        ∧ PassedSlot s t x .store (.store segs [] data) none false))
  ∧ (∀ (f : LForm) (s s1 s2 : State) (a b c : W64) (x : Nat) (l : Loc), Op.readAB f.a f.b s = .ok ((a, b), s1) →
    Op.readS f.c 54 s1 = .ok (c, s2) → OwnsFab s (bfld f.mod 16 6) → HandleNames s a x → Dst8 s f.d 16 l →
    let v := s.slot x
    let y := bfld f.mod 16 6
    let bOk := bfld b 28 36 = 0 ∧ bfld b 11 5 = 0
    let cOk := f.c = 60 ∨ c.toNat % 8 = 0
    let here (e : Access) : Bool := decide (e.slot = some x)
    (¬bOk → TrapsWith (.post f) s (fieldTrap 4 b)) ∧ (bOk → ¬cOk → TrapsWith (.post f) s (fieldTrap 54 c))
    ∧ (bOk → cOk → WaitsQuiet (.post f) s (s.slotUsed x) here)
    ∧ (bOk → cOk → ClearAhead s (s.slotUsed x) here → (s.fab.cmds.filter fun c => c.ctx = 8192 + y).length < 64 →
      ∃ t, exec (.post f) s = .next t ∧ Commands [.fab, .slots] 1 s t (8192 + y) l
        ∧ t.fab = { s.fab with cmds := s.fab.cmds ++ [fabCommand s y false
            (.post (v.gen ++ BitVec.ofNat 16 (x % 4096)) v.base v.size b (if f.c = 60 then none else some c))] }
        ∧ SlotSet s t x { v with st := 2 }))
  ∧ (∀ (f : LForm) (s s1 : State) (a b : W64), Op.readAB f.a f.b s = .ok ((a, b), s1) →
    let x := bfld f.mod 0 12
    let pasid := s.view.id.pasid.toNat
    let c := 5 * 4096 + x
    (s.slotOwn s.view.id.part x = false → TrapsWith (.precvArm f) s { cls := 0x04, code := 0, flo := 32, fw := 16 })
    ∧ (s.slotOwn s.view.id.part x = true →
      (¬ExtentFit s a b → TrapsWith (.precvArm f) s (parcelError 0x06 x 0 a.toNat))
      ∧ (ExtentFit s a b → (s.slot x).st ≠ 0 → TrapsWith (.precvArm f) s (parcelError 0x07 x 0 0))
      ∧ let busy := s.extentBusy pasid a.toNat b.toNat
        let here (e : Access) : Bool := e.touches a.toNat b.toNat
        (ExtentFit s a b → (s.slot x).st = 0 → WaitsQuiet (.precvArm f) s busy here)
        ∧ ∀ l, ExtentFit s a b → (s.slot x).st = 0 → ClearAhead s busy here → Dst8 s f.d 16 l →
        ∃ t, exec (.precvArm f) s = .next t ∧ Delivers [.slots, .ctxs] [] 1 s t l (nextNumber s c).toNat
          ∧ t.me.files.lx = nextNumber s c ∧ t.me.files.lxWait = none ∧ TookNumber s t c
          ∧ SlotSet s t x { s.slot x with st := 4, pasid := pasid, base := a, size := b.toNat, part := s.view.id.part,
                                          arm := (nextNumber s c).toNat, armer := some s.cur, armNode := s.view.id.launch.toNat, peer := none,
                                          lines := 0 }))
  ∧ (∀ (f : LForm) (s s1 : State) (a : W64), Op.readS f.a 10 s = .ok (a, s1) →
    let x := bfld f.mod 0 12
    let met := a.toNat ≤ (s.ctx (5 * 4096 + x)).counter.toNat ∨ s.view.sch.waitDone = true
    s.slotOwn s.view.id.part x = true →
    (¬met → Waits (.precv f) s 1 (5 * 4096 + x) a 6)
    ∧ ∀ l, met → Dst8 s f.d 16 l → ∃ t, exec (.precv f) s = .next t
      ∧ MarkedResult [] [.sch] s t l ((SMap.find (s.slot x).handles a.toNat).getD 0).toNat
      ∧ t.me.sch = { s.me.sch with waitDone := false })
  ∧ (∀ (f : LForm) (s s1 : State) (a : W64) (l : Loc), Op.readS f.a 10 s = .ok (a, s1) →
    let x := bfld a 0 12
    let v := s.slot x
    let sel := bfld f.mod 20 2
    (bfld a 12 4 ≠ 0 → TrapsWith (.pstat f) s (fieldTrap 10 a))
    ∧ (bfld a 12 4 = 0 → s.slotOwn s.view.id.part x = false → TrapsWith (.pstat f) s (parcelError 0x01 (bfld a 0 32) 0 0))
    ∧ (bfld a 12 4 = 0 → s.slotOwn s.view.id.part x = true → Dst8 s f.d 16 l → ∃ t w, exec (.pstat f) s = .next t
      ∧ Delivers [] [] 1 s t l w ∧ t.me.files.lx.toNat = w ∧ t.me.files.lxWait = none
      ∧ (sel = 0 → v.st < 8 → w = v.last.toNat + v.st * 2 ^ 32 + (if bfld a 16 16 = v.gen.toNat then 2 ^ 35 else 0) + x * 2 ^ 36
          + v.gen.toNat * 2 ^ 48)
      ∧ (sel ≠ 0 → bfld a 16 16 ≠ v.gen.toNat → w = 0)
      ∧ (bfld a 16 16 = v.gen.toNat → (sel = 1 → w = v.base.toNat) ∧ (sel = 2 → w = v.size % 2 ^ 64))))
  ∧ ∀ (x : Nat) (s : State),
    (¬((s.slot x).st = 4 ∨ (s.slot x).st = 5) → Unchanged (.parcelArmTimeout x) s)
    ∧ ((s.slot x).st = 4 ∨ (s.slot x).st = 5 → ∃ t u, exec (.parcelArmTimeout x) s = .next t
      ∧ t = (u.finish (5 * 4096 + x) (s.slot x).arm (some (3, 0)) 0).fabTick ∧ Changes [.slots] s u
      ∧ SlotSet s u x { s.slot x with gen := nextGen (s.slot x).gen, st := 0, peer := none })

/-! ### Refinement -/

/-- The refinement loop (R217, R294 to R304): REFINE, RLSTAT, RLABORT, RLRUNG and the events RLC_BLOCK_START, RLC_STAGE_END and RLC_BLOCK_EXIT. A
block runs FACTOR, SOLVE, RESIDUAL and UPDATE in turn; after RESIDUAL the test of R298 decides between convergence, divergence, stagnation and the
next iteration; an abort exits at the end of the stage, and a FINAL UPDATE's exit spends it. The model's choices: an event whose condition fails
changes nothing (log entry 3); the block of a partition that is torn down exits as aborted (35), and what the status words hold beyond R303 and
the identity of the stage gangs (70). The field that the trap of an operand of `REFINE` and `RLRUNG` names and its value are log entry 45. -/
def Obligations.Refinement : Prop :=
  let owns (s : State) (x : Nat) : Prop := s.ctxOwn s.view.id.part (3 * 4096 + x) = true
  let foreign : TrapInfo := { cls := 0x04, code := 0, flo := 48, fw := 4 }
  (∀ (f : LForm) (s s1 : State) (a : W64), Op.readS f.a 10 s = .ok (a, s1) →
    let x := bfld f.mod 16 4
    (¬owns s x → TrapsWith (.refine f) s foreign)
    ∧ (owns s x → a.toNat % 256 ≠ 0 → TrapsWith (.refine f) s (fieldTrap 10 a))
    ∧ (owns s x → a.toNat % 256 = 0 → 8 ≤ (s.rlc x).queue.length → Stalls (.refine f) s)
    ∧ ∀ v u, owns s x → a.toNat % 256 = 0 → (s.rlc x).queue.length < 8 → Op.loadNow a 128 s = .ok (.ok v, u) →
      let blk := BitVec.ofNat 1024 v
      (∀ off, blkBad a.toNat blk = some off → TrapsAfter (.refine f) s u { cls := 0x04, code := 0, va := a + BitVec.ofNat 64 off })
      ∧ ∀ l, blkBad a.toNat blk = none → Dst8 s f.d 16 l → ∃ t, exec (.refine f) s = .next t
        ∧ Commands [.rlcs, .mem, .issue] 1 s t (3 * 4096 + x) l ∧ t.mem = u.mem ∧ t.issue = u.issue ∧ (∀ y, y ≠ x → t.rlc y = s.rlc y)
        ∧ t.rlc x = { s.rlc x with queue := (s.rlc x).queue ++
            [{ seq := (nextNumber s (3 * 4096 + x)).toNat, iss := .strand s.cur s.view.id s.view.fr, va := a, blk := blk,
               pasid := s.view.id.pasid.toNat, part := s.view.id.part, launch := s.view.id.launch.toNat, stage := s.view.id.stage.toNat,
               fr := s.view.fr, cube := false, gate := some s.me.q.next }] })
  ∧ (∀ (f : LForm) (s : State) (l : Loc), Dst8 s f.d 16 l →
    let x := bfld f.mod 16 4
    let sel := bfld f.mod 20 2
    let v := s.rlc x
    (¬owns s x → TrapsWith (.rlstat f) s foreign)
    ∧ (owns s x → ∃ t w, exec (.rlstat f) s = .next t ∧ Delivers [] [] 1 s t l w ∧ t.me.files.lx.toNat = w ∧ t.me.files.lxWait = none
      ∧ (v.st = 0 → w = 0)
      ∧ (v.st ≠ 0 → (sel = 1 → w = v.eta.toNat) ∧ (sel = 2 → w = v.etap.toNat) ∧ (sel = 3 → w = v.sum.toNat)
        ∧ (sel = 0 → v.st < 8 → w % 8 = v.st ∧ w.testBit 3 = v.req.isSome ∧ w.testBit 4 = v.abort
          ∧ w / 2 ^ 8 % 4 = v.rung % 4 ∧ w / 2 ^ 12 % 2 ^ 20 = min v.k 0xFFFFF
          ∧ ∀ r, v.queue.head? = some r → w / 2 ^ 32 = r.seq % 2 ^ 32))))
  ∧ (∀ (f : LForm) (s : State),
    let x := bfld f.mod 16 4
    (¬owns s x → TrapsWith (.rlabort f) s foreign)
    ∧ (owns s x → ∃ t, exec (.rlabort f) s = .next t ∧ Changes [.rlcs] s t ∧ (∀ y, y ≠ x → t.rlc y = s.rlc y)
      ∧ t.rlc x = if (s.rlc x).st = 0 then s.rlc x else { s.rlc x with abort := true }))
  ∧ (∀ (f : LForm) (s s1 : State) (a : W64), Op.readS f.a 10 s = .ok (a, s1) →
    let x := bfld f.mod 16 4
    let v := s.rlc x
    (¬owns s x → TrapsWith (.rlrung f) s foreign)
    ∧ (owns s x → 4 ≤ a.toNat → TrapsWith (.rlrung f) s (fieldTrap 10 a))
    ∧ (owns s x → a.toNat < 4 → v.queue = [] ∨ v.st = 0 → ∃ t, exec (.rlrung f) s = .next t ∧ AllQuiet s t)
    ∧ ∀ r, owns s x → a.toNat < 4 → v.queue.head? = some r → v.st ≠ 0 →
      (a.toNat ≤ v.rung ∨ blkNr r.blk < a.toNat → TrapsWith (.rlrung f) s (fieldTrap 10 a))
      ∧ (v.rung < a.toNat → a.toNat ≤ blkNr r.blk → ∃ t, exec (.rlrung f) s = .next t ∧ OnSelf [.rlcs] s t ∧ Alters [] s.me t.me
        ∧ (∀ y, y ≠ x → t.rlc y = s.rlc y)
        ∧ t.rlc x = { v with req := some a.toNat }))
  ∧ (∀ (x : Nat) (s : State),
    let v := s.rlc x
    (v.queue = [] → Unchanged (.rlcBlockStart x) s ∧ Unchanged (.rlcStageEnd x) s ∧ Unchanged (.rlcBlockExit x) s)
    ∧ ∀ r, v.queue.head? = some r →
      (v.st ≠ 0 ∨ s.mayStart r.iss r.gate = false → Unchanged (.rlcBlockStart x) s)
      ∧ (v.st = 0 → s.mayStart r.iss r.gate = true → ∃ t, exec (.rlcBlockStart x) s = .next t ∧ (t.rlc x).st = 1 ∧ (t.rlc x).k = 0
        ∧ (t.rlc x).rung = 0 ∧ (t.rlc x).prev = none ∧ (t.rlc x).abort = false ∧ (t.rlc x).req = none ∧ (t.rlc x).queue = v.queue)
      ∧ (let dead := (s.part r.part).st = 2 ∧ ∀ i ∈ v.gang, ((s.strand? i).getD {}).place.resident = false
        (v.st = 0 ∨ v.st = 5 ∨ (¬dead ∧ (v.gang ≠ [] ∨ s.stageWaits x = true)) → Unchanged (.rlcStageEnd x) s)
        ∧ (dead → v.st ≠ 0 → v.st ≠ 5 → ∃ t, exec (.rlcStageEnd x) s = .next t ∧ (t.rlc x).st = 5 ∧ (t.rlc x).exit = 6))
      ∧ (v.gang = [] → s.stageWaits x = false → (s.part r.part).st ≠ 2 →
        (∀ n, n = 1 ∨ n = 2 → v.st = n → ∃ t, exec (.rlcStageEnd x) s = .next t ∧ (t.rlc x).k = v.k
          ∧ if v.abort then (t.rlc x).st = 5 ∧ (t.rlc x).exit = 6 else (t.rlc x).st = n + 1)
        ∧ (v.st = 3 → ∃ t, exec (.rlcStageEnd x) s = .next t ∧ t = s.rlcTest x r)
        ∧ (v.st = 4 → ∃ t, exec (.rlcStageEnd x) s = .next t ∧ (t.rlc x).k = v.k
          ∧ (v.after = 200 → (t.rlc x).st = 5 ∧ (t.rlc x).exit = v.fin ∧ (t.rlc x).abort = false)
          ∧ (v.after ≠ 200 → v.abort = true → (t.rlc x).st = 5 ∧ (t.rlc x).exit = 6)
          ∧ (v.after < 100 → v.abort = false → v.req = none → (t.rlc x).st = 2 ∧ (t.rlc x).prev = some v.eta)
          ∧ ∀ q, v.abort = false → (v.after = 100 + q ∧ q < 100) ∨ (v.after < 100 ∧ v.req = some q) →
            if blkNr r.blk < q then (t.rlc x).st = 5 ∧ (t.rlc x).exit = 4
            else (t.rlc x).st = 1 ∧ (t.rlc x).rung = q ∧ (t.rlc x).prev = none ∧ (t.rlc x).req = none))
      ∧ (v.st ≠ 5 ∨ (∃ w ∈ s.words, w.after = .status x) → Unchanged (.rlcBlockExit x) s)
      ∧ (v.st = 5 → (∀ w ∈ s.words, w.after ≠ .status x) → v.trapped = false → ∃ t u, exec (.rlcBlockExit x) s = .next t
        ∧ t = ((u.finish (3 * 4096 + x) r.seq v.failed 0).nodeCheck r.launch).settleAll ∧ Changes [.rlcs] s u
        ∧ u.rlc x = { queue := v.queue.tail, norm := v.norm })
      ∧ (v.st = 5 → (∀ w ∈ s.words, w.after ≠ .status x) → v.trapped = true → ∃ t, ∃ u : State, exec (.rlcBlockExit x) s = .next t
        ∧ t = ((u.finish (3 * 4096 + x) r.seq v.failed 0).nodeCheck r.launch).settleAll
        ∧ u.rlc x = { queue := v.queue.tail, norm := v.norm }
        ∧ ∀ sid id fr y, r.iss = .strand sid id fr → s.strand? sid = some y → y.id.state ≠ 7 →
          u.strand? sid = some { y with trap := { y.trap with pending := y.trap.pending ++ [{ ctx := 3 * 4096 + x, seq := r.seq, info :=
            { cls := 0x0E, code := v.exit, va := r.va, aux0 := BitVec.ofNat 64 r.seq,
              aux1 := BitVec.ofNat 64 (v.k % 2 ^ 32 + v.rung * 2 ^ 32 + (3 * 4096 + x) * 2 ^ 48) } }] } }))
  ∧ ∀ (x : Nat) (s : State) (r : RBlock), (s.rlc x).queue.head? = some r →
    let v := s.rlc x
    let w := (s.rlcTest x r).rlc x
    let value (z : W64) : FVal := unpackVal 0 16 z.toNat
    let word (lo : Nat) : W64 := BitVec.ofNat 64 (bfld r.blk lo 64)
    let eta := etaOf v.normSum (word 576)
    let diverged := v.fl.toNat &&& bfld r.blk 13 6 ≠ 0 ∨ (value eta).isFin = false
      ∨ (fLt (value (word 384)) (value eta) = true ∧ ∃ p, v.prev = some p ∧ fLt (mulExact (value (word 512)) (value p)).1 (value eta) = true)
    let converged := v.fl.toNat &&& bfld r.blk 13 6 = 0 ∧ (value eta).isFin = true ∧ fLt (value (word 384)) (value eta) = false
    let stalled := ∃ p, v.prev = some p ∧ fLt (mulExact (value (word 448)) (value p)).1 (value eta) = true
    w.k = v.k + 1 ∧ w.sum = v.normSum ∧ w.etap = v.prev.getD 0 ∧ ((value eta).isFin = true → w.eta = eta)
      ∧ w.itr.getD v.rung 0 = (if v.rung < v.itr.length then v.itr.getD v.rung 0 + 1 else 0)
      ∧ (v.abort = true → w.st = 5 ∧ w.exit = 6)
      ∧ (v.abort = false → converged → w.st = 4 ∧ w.after = 200 ∧ w.fin = 1 ∧ w.req = v.req)
      ∧ (v.abort = false → diverged → bfld r.blk 11 1 = 1 → w.st = 5 ∧ w.exit = 3 ∧ w.trapped = true)
      ∧ (v.abort = false → diverged → bfld r.blk 11 1 = 0 →
        if blkNr r.blk < v.rung + 1 then w.st = 5 ∧ w.exit = 4 else w.st = 1 ∧ w.rung = v.rung + 1 ∧ w.prev = none)
      ∧ (v.abort = false → ¬converged → ¬diverged → w.st = 4
        ∧ (stalled → bfld r.blk 10 1 = 0 → w.after = 200 ∧ w.fin = 2 ∧ w.req = v.req)
        ∧ (stalled → bfld r.blk 10 1 = 1 → w.after = 100 + v.rung + 1)
        ∧ (¬stalled → v.k + 1 = bfld r.blk 32 32 → w.after = 200 ∧ w.fin = 5 ∧ w.req = v.req)
        ∧ (¬stalled → v.k + 1 ≠ bfld r.blk 32 32 → w.after = 0))

/-! ### Chuck, the slots and the MTU between instructions -/

/-- Placement and slots (R17, R26, R31, R34, R135): the events GANG_PLACEMENT, CLUSTER_RESERVATION, STRAND_SLOT_FREE and CONTEXT_ENTRY_GRANT. A placed
unit is the first in order that fits, on cores of one cluster of its partition; the strands of a new gang stand in the slots with their identity,
and records take their slots as they are. The model's choices: an event whose condition fails changes nothing (log entry 3), a slot's time without
issue counts from the placement (88), and which of equal units comes first and for which a cluster is kept (71). -/
def Obligations.Placement : Prop :=
  (∀ s : State,
    (s.nextPlacement = none → Unchanged .gangPlacement s)
    ∧ ∀ u cl cores, s.nextPlacement = some (u, cl, cores) → ∃ t, exec .gangPlacement s = .next t ∧ t = s.place u cores
      ∧ u ∈ s.unitsInOrder ∧ cores.length = (s.unitNeeds u).length ∧ (∀ k ∈ cores, k ∈ s.coresOf (s.unitPart u) cl)
      ∧ (∃ before after, s.unitsInOrder = before ++ u :: after ∧ ∀ v ∈ before, s.choice v = none)
      ∧ (∀ p, u = .recs p → p.sids.Nodup → t.chuck.ready = s.chuck.ready.filter (fun q => decide (q.sids ≠ p.sids))
        ∧ (∀ i, i ∉ p.sids → t.strand? i = s.strand? i)
        ∧ ∀ (i sid k : Nat) (z : Strand), p.sids[i]? = some sid → cores[i]? = some k → s.strand? sid = some z → ∃ y, t.strand? sid = some y
          ∧ y = { z with place := y.place, sch := { z.sch with age := 0, last := s.cycle k },
                         id := { z.id with state := 1, reason := 0, wkind := 0, wctx := 0, wval := 0 } }
          ∧ y.place.key = k ∧ y.place.resident = true)
      ∧ ∀ n, u = .gang n → ∀ i k, cores[i]? = some k → ∃ y, t.strand? (s.nextSid + i) = some y ∧ y.place.key = k ∧ y.place.resident = true
        ∧ y.id.state = 1 ∧ y.id.launch = BitVec.ofNat 16 n ∧ y.id.gang = BitVec.ofNat 20 (s.node n).mat ∧ y.id.idx = BitVec.ofNat 6 i
        ∧ y.id.eprio = y.id.bprio ∧ y.id.pasid = (s.node n).pasid ∧ y.id.part = (s.node n).part ∧ y.fetched = s.mem.cells)
  ∧ (∀ s : State,
    (s.unitsInOrder = [] → Unchanged .clusterReservation s)
    ∧ ∀ u rest, s.unitsInOrder = u :: rest →
      (s.choice u ≠ none ∨ (∃ r ∈ s.chuck.reserved, r.2 = u.key) ∨ s.reserveFor u = none → Unchanged .clusterReservation s)
      ∧ ∀ cl, s.choice u = none → (∀ r ∈ s.chuck.reserved, r.2 ≠ u.key) → s.reserveFor u = some cl →
        ∃ t, exec .clusterReservation s = .next t ∧ Changes [.chuck] s t
          ∧ t.chuck = { s.chuck with reserved := s.chuck.reserved ++ [(cl, u.key)] } ∧ cl ∈ s.unitClusters u
          ∧ ∀ c ∈ s.unitClusters u, s.keptFrom u c = false → s.couldTake u c = true →
            s.freeSlots (s.unitPart u) c ≤ s.freeSlots (s.unitPart u) cl)
  ∧ (∀ (sid : Nat) (s : State),
    (s.strand? sid = none → Unchanged (.strandSlotFree sid) s)
    ∧ ∀ y, s.strand? sid = some y →
      (y.id.state ≠ 7 ∨ y.place.resident = false ∨ y.q.accs ≠ [] ∨ s.engineBusy sid = true → Unchanged (.strandSlotFree sid) s)
      ∧ (y.id.state = 7 → y.place.resident = true → y.q.accs = [] → s.engineBusy sid = false →
        ∃ t, exec (.strandSlotFree sid) s = .next t ∧ t = (s.dropLatches sid).dropStrand sid ∧ t.strand? sid = none
          ∧ ∀ i, i ≠ sid → t.strand? i = s.strand? i))
  ∧ ∀ s : State,
    (s.nextCreation = none → Unchanged .contextEntryGrant s)
    ∧ ∀ c, s.nextCreation = some c → ∃ t, ∃ u : State, exec .contextEntryGrant s = .next t ∧ t = u.createNow c ∧ Changes [.chuck] s u
      ∧ u.chuck = { s.chuck with waiting := s.chuck.waiting.erase c } ∧ c ∈ s.chuck.waiting ∧ s.creationNeeds c ≤ s.entriesFree
      ∧ ∀ d ∈ s.chuck.waiting, s.creationNeeds d ≤ s.entriesFree → d.prio ≤ 7 → d.prio ≤ c.prio

/-- Waits, aging, idling, page faults and pre-emption (R32 to R34, R130, R132, R136, R145, R186): the events WAIT_SPIN_EXPIRY, WAIT_TARGET_SATISFIED, AGING_PRIORITY_RAISE,
IDLE_WAKE, PAGE_RESIDENT_RESUME and PREEMPT_TIMEOUT. The model's choices: an event whose condition fails changes nothing (log entry 3), and a walk
that ends otherwise than it did says that the page is resident (101). -/
def Obligations.StrandEvents : Prop :=
  (∀ (sid : Nat) (s : State), s.strand? sid = none →
    Unchanged (.waitSpinExpiry sid) s ∧ Unchanged (.waitTargetSatisfied sid) s ∧ Unchanged (.agingPriorityRaise sid) s
      ∧ Unchanged (.pageResidentResume sid) s ∧ Unchanged (.preemptTimeout sid) s)
  ∧ ∀ (sid : Nat) (s : State) (y : Strand), s.strand? sid = some y →
    let met := s.waitMet y
    let others (t : State) : Prop := ∀ i, i ≠ sid → t.strand? i = s.strand? i
    (y.id.wkind = 1 → (met = true ↔ y.id.wval.toNat ≤ (s.ctx y.id.wctx).counter.toNat
        ∨ ∃ e ∈ y.trap.pending, e.ctx = y.id.wctx ∧ e.seq ≤ y.id.wval.toNat))
    ∧ (y.id.state = 2 → y.sch.stop = none → met = false →
      ∃ t, exec (.waitSpinExpiry sid) s = .next t ∧ t = s.stopStrand sid (.suspend y.id.reason false))
    ∧ (y.id.state ≠ 2 ∨ y.sch.stop ≠ none ∨ met = true → Unchanged (.waitSpinExpiry sid) s)
    ∧ (y.id.state = 2 → y.sch.stop = none → met = true → ∃ t, exec (.waitTargetSatisfied sid) s = .next t ∧ Changes [.strands] s t ∧ others t
      ∧ ∃ z, t.strand? sid = some z ∧ Alters [.id, .sch] y z
        ∧ z.id = { y.id with state := 1, reason := 0, wkind := 0, wctx := 0, wval := 0 }
        ∧ z.sch = { y.sch with waitDone := z.sch.waitDone } ∧ (y.id.wkind ≠ 2 → z.sch.waitDone = true))
    ∧ (y.id.state = 3 → (3 ≤ y.id.reason ∧ y.id.reason ≤ 6) → y.sch.held = false → met = true →
      ∃ t, exec (.waitTargetSatisfied sid) s = .next t
        ∧ t = (s.setStrand sid { y with sch := { y.sch with waitDone := s.waitDone y } }).makeRunnable sid)
    ∧ (met = false → Unchanged (.waitTargetSatisfied sid) s)
    ∧ (y.runs = true → y.sch.passed = true → ∃ t z, exec (.agingPriorityRaise sid) s = .next t ∧ Changes [.strands] s t ∧ others t ∧ t.strand? sid = some z
      ∧ Alters [.id, .sch] y z ∧ z.sch = { y.sch with age := z.sch.age } ∧ y.sch.age < z.sch.age ∧ z.sch.age ≤ y.sch.age + 65536
      ∧ z.sch.age % 65536 = 0 ∧ z.id.eprio.toNat = min 7 (y.id.eprio.toNat + 1) ∧ z.id = { y.id with eprio := z.id.eprio, aged := z.id.aged })
    ∧ (y.runs = false ∨ y.sch.passed = false → Unchanged (.agingPriorityRaise sid) s)
    ∧ (∃ t, exec (.idleWake sid) s = .next t ∧ Changes [.strands] s t ∧ others t
      ∧ t.strand? sid = some { y with sch := { y.sch with idle := false, idleOn := [] } })
    ∧ (y.id.state = 3 → y.id.reason = 7 → y.sch.held = false → s.mem.faultKey y.id.pasid.toNat y.sch.faultVa.toNat ≠ y.sch.faultKey →
      ∃ t, exec (.pageResidentResume sid) s = .next t ∧ t = s.makeRunnable sid)
    ∧ (y.id.state ≠ 3 ∨ y.id.reason ≠ 7 ∨ y.sch.held = true ∨ s.mem.faultKey y.id.pasid.toNat y.sch.faultVa.toNat = y.sch.faultKey →
      Unchanged (.pageResidentResume sid) s)
    ∧ (y.sch.preempt = false ∨ y.place.resident = false ∨ y.id.state ≠ 1 → Unchanged (.preemptTimeout sid) s)
    ∧ (y.sch.preempt = true → y.place.resident = true → y.id.state = 1 →
      (y.sch.stop = none → ∃ t, exec (.preemptTimeout sid) s = .next t ∧ t = s.stopStrand sid (.suspend 8 true))
      ∧ (y.sch.stop ≠ none → ∃ t, exec (.preemptTimeout sid) s = .next t ∧ Changes [.strands] s t ∧ others t
        ∧ t.strand? sid = some { y with sch := { y.sch with forced := true } }))

/-- Leases and migration (R187 to R189): the events LEASE_EXPIRY, MIGRATION_ROUND_END and MIGRATION_FREEZE_END. A round with at most 256 lines marked freezes the page, the sixteenth round
otherwise ends the migration, and another copies the marked lines; at the end of the freeze the leaf entry names the new frame and
nothing else of it changes, the walker reads a node that stood in the old frame from the new one, and no translation of the page stays cached. The
model's choices: an event whose condition fails changes nothing (log entry 3), the event of a migration that ends in vain (26), how the walker
keeps where nodes moved (34), and what thaws with the page (`thaw`). -/
def Obligations.LeasesAndMigration : Prop :=
  (∀ (sid page : Nat) (s : State), ∃ t, exec (.leaseExpiry sid page) s = .next t ∧ Changes [.strands] s t
    ∧ (∀ i, i ≠ sid → t.strand? i = s.strand? i)
    ∧ ∀ y, s.strand? sid = some y →
      t.strand? sid = some { y with q := { y.q with leases := y.q.leases.filter fun l => decide (l.va ≠ page) } })
  ∧ ∀ (pasid page : Nat) (s : State),
    (s.mem.mig? pasid page = none → Unchanged (.migrationRoundEnd pasid page) s ∧ Unchanged (.migrationFreezeEnd pasid page) s)
    ∧ ∀ g, s.mem.mig? pasid page = some g →
      (g.frozen = true → Unchanged (.migrationRoundEnd pasid page) s)
      ∧ (g.frozen = false → Unchanged (.migrationFreezeEnd pasid page) s)
      ∧ (g.frozen = false → g.marked.length ≤ 256 → ∃ t, exec (.migrationRoundEnd pasid page) s = .next t ∧ Changes [.mem] s t
        ∧ (∀ a, t.mem.byte a = s.mem.byte a) ∧ (∃ h, t.mem.mig? pasid page = some h ∧ h = { g with frozen := true }))
      ∧ (g.frozen = false → 256 < g.marked.length → 15 ≤ g.round → ∃ t, ∃ u : State, exec (.migrationRoundEnd pasid page) s = .next t
        ∧ t = u.migEvent g ∧ Changes [.mem] s u ∧ (∀ a, u.mem.byte a = s.mem.byte a) ∧ ∀ h ∈ u.mem.migs, ¬(h.pasid = g.pasid ∧ h.va = g.va))
      ∧ (g.frozen = false → 256 < g.marked.length → g.round < 15 → g.old % 64 = 0 → g.new % 64 = 0 →
        (g.old + 65536 ≤ g.new ∨ g.new + 65536 ≤ g.old) → g.marked.Nodup → (∀ l ∈ g.marked, g.old ≤ 64 * l ∧ 64 * l < g.old + 65536) →
        ∃ t, exec (.migrationRoundEnd pasid page) s = .next t ∧ Changes [.mem] s t
          ∧ (∃ h, t.mem.mig? pasid page = some h ∧ h = { g with round := g.round + 1, marked := [] })
          ∧ (∀ l ∈ g.marked, ∀ k, k < 64 → t.mem.byte (g.new + (64 * l - g.old) + k) = s.mem.byte (64 * l + k))
          ∧ ∀ a, (∀ l ∈ g.marked, ¬(g.new + (64 * l - g.old) ≤ a ∧ a < g.new + (64 * l - g.old) + 64)) → t.mem.byte a = s.mem.byte a)
      ∧ (g.frozen = true → ∃ t, ∃ u : State, exec (.migrationFreezeEnd pasid page) s = .next t ∧ t = u.thaw ∧ Changes [.mem, .strands] s u
        ∧ (∀ h ∈ u.mem.migs, ¬(h.pasid = g.pasid ∧ h.va = g.va))
        ∧ (∀ i, u.strand? i = (s.strand? i).map fun y => y.rehome g)
        ∧ (∀ c ∈ u.mem.tlb, c ∈ s.mem.tlb) ∧ (∀ c ∈ u.mem.tlb, c.pasid = g.pasid → c.va + 2 ^ c.lg ≤ g.va ∨ g.va + 65536 ≤ c.va)
        ∧ (∀ src e, s.mem.namesNode src e (g.old / 65536) = true → (src, e) ∈ s.mem.nodeEntries → g.marked = [] →
            src / 65536 ≠ g.old / 65536 → (src < g.new ∨ g.new + 65536 ≤ src) → (s.mem.moveNode g).nodeFrame src e = g.new / 65536)
        ∧ (g.marked = [] → g.new % 65536 = 0 → let at_ := (s.mem.moveNode g).leafAt g.pasid g.va
          (∀ l, l ∈ linesOf at_ 8 → s.mem.lineBad l = false) →
          let e := s.mem.rd at_ 8
          nfld (u.mem.rd at_ 8) 16 32 = g.new / 65536 % 2 ^ 32 ∧ nfld (u.mem.rd at_ 8) 0 16 = nfld e 0 16 ∧ nfld (u.mem.rd at_ 8) 48 16 = nfld e 48 16
            ∧ ∀ a, ¬(at_ ≤ a ∧ a < at_ + 8) → u.mem.byte a = s.mem.byte a))

/-! ### Transactions received -/

/-- Writes, atomics and bank-side commands at their home (R188, R190, R193, R212 to R216, R264, R266, R267, R269, R270, R310): the events WRITE,
WRITE_S, ATOMIC, FADD_C, BANK, COLL_IN and RESERVED_OP_TRANSACTION. A malformed transaction is performed by no one and answered with status 1; one
that performs puts its bytes in memory and nowhere else, and is answered once with DONE, an atomic with REPLY and the old value; one that meets a
line that fails its check changes nothing, and is answered with status 3. A write to the status of a block that is not complete is left out (log
entry 98). That nothing of a packet is written where one line may not be, and which status answers what, is log entry 55; that the home counts a
barrier's lines by source, context and tag is log entry 56; that an event given a transaction of another op changes nothing is log entry 3. -/
def Obligations.RemoteAccesses : Prop :=
  let event (t : Txn) : List (Instr × Nat) := [(.write t, 1), (.writeS t, 2), (.atomic t, 3), (.faddC t, 4), (.bank t, 5), (.req t, 6), (.collIn t, 7),
    (.collOut t, 8), (.pline t, 9), (.pcommit t, 10), (.pabort t, 11)]
  (∀ (s : State) (t : Txn) (i : Instr) (op : Nat), (i, op) ∈ event t →
    (t.op ≠ op → Unchanged i s)
    ∧ (t.op = op → t.reserved = true ∨ t.dst ≠ s.mem.devid.toNat ∨ t.count ≠ t.units.length →
        Answers i s (s.unqueue t) ((s.unqueue t).doneTxn t 1 0 0))
    ∧ (t.op = op → t.reserved = false → t.dst = s.mem.devid.toNat → t.count = t.units.length →
        (∃ u ∈ (s.unqueue t).fab.stalled, u.src = t.src ∧ u.tag = t.tag) → StallsIn i s (s.unqueue t) t))
  ∧ (∀ (s : State) (t : Txn),
    (t.reserved = true → Answers (.reservedOpTransaction t) s (s.unqueue t) ((s.unqueue t).doneTxn t 1 0 0))
    ∧ (t.reserved = false → Unchanged (.reservedOpTransaction t) s))
  ∧ (∀ (s : State) (t : Txn), Arrives s t 7 → Answers (.collIn t) s (s.unqueue t) ((s.unqueue t).doneTxn t 0x21 0 0))
  ∧ (∀ (s : State) (t : Txn) (st mc h old : Nat),
    let d := s.doneTxn t st mc h
    let r := s.replyTxn t old
    d.op = 0x10 ∧ r.op = 0x11 ∧ d.dst = t.src ∧ r.dst = t.src ∧ d.src = s.mem.devid.toNat ∧ r.src = s.mem.devid.toNat ∧ d.tag = t.tag ∧ r.tag = t.tag
      ∧ d.units = [] ∧ r.units = [] ∧ d.opnd0 % 256 = st % 256 ∧ d.opnd0 / 2 ^ 8 % 256 = mc % 256 ∧ d.opnd0 / 2 ^ 32 = h % 2 ^ 32
      ∧ r.opnd0 = old % 2 ^ 64)
  ∧ (∀ (s : State) (t : Txn) (i : Instr) (n v lines : Nat) (good : Prop),
    (i = .write t ∧ Arrives s t 1 ∧ n = 64 * t.units.length ∧ v = unitsVal t.units ∧ lines = t.units.length
        ∧ good = (t.units ≠ [] ∧ t.va % 64 = 0 ∧ homeOf t.va = t.dst ∧ t.aux % 64 = 0))
      ∨ (i = .writeS t ∧ Arrives s t 2 ∧ n = tyW t.typ / 8 ∧ v = t.opnd0 % 2 ^ tyW t.typ ∧ lines = t.opnd1
        ∧ good = (t.units = [] ∧ t.typ < 8 ∧ homeOf t.va = t.dst ∧ t.aux % 64 = 0)) →
    let u0 := s.unqueue t
    let mine (b : Nat × Nat × Nat × Nat) : Bool := b.1 = t.src && b.2.1 = t.ctx && b.2.2.1 = t.tag
    let count := ((s.fab.bars.find? mine).map fun b => b.2.2.2).getD 0 + lines
    (¬good → Answers i s u0 (u0.doneTxn t 1 0 0))
    ∧ (good → u0.barFrozen t = true → StallsIn i s u0 t)
    ∧ (good → u0.barFrozen t = false → (∀ f, u0.translate t.pasid t.va n .write = .error f → HomeFaults i s (u0.tried t.pasid t.va n .write) t f)
      ∧ ∀ segs u1, u0.translate t.pasid t.va n .write = .ok (segs, u1) →
        (¬UnitsGood t → Answers i s u1 (u1.doneTxn t 3 0 0))
        ∧ (UnitsGood t → ∀ g l, segs = [g] → linesOf g.pa g.len = [l] → u1.mem.lineBad l = true → coversLine g.pa g.len l = false →
          HomeLineFails i s u1 t l)
        ∧ (UnitsGood t → ∀ g, segs = [g] → SegGood u1.mem g n → g.pa % 8 = 0 → u1.statusHits [(g.pa, n)] = [] →
          (t.aux = 0 → ∃ u2, Answers i s u2 (u2.doneTxn t 0 0 0) ∧ Changes [.mem] u1 u2 ∧ BytesPut u1.mem u2.mem g.pa n v)
          ∧ (t.aux ≠ 0 → count < t.opnd1 → ∃ u2, Answers i s u2 (u2.doneTxn t 0 0 0) ∧ Changes [.mem, .fab] u1 u2
            ∧ BytesPut u1.mem u2.mem g.pa n v ∧ u2.fab.bars.find? mine = some (t.src, t.ctx, t.tag, count))
          ∧ (t.aux ≠ 0 → t.opnd1 ≤ count → ∀ m, m = (u1.mem.scatter segs v).1 → ∀ h u3, ({ u1 with mem := m } : State).translate t.pasid t.aux 64 .write = .ok ([h], u3) →
            SegGood u3.mem h 64 → ∃ u2, Answers i s u2 (u2.doneTxn t 0 0 0) ∧ Changes [.mem, .fab] u1 u2 ∧ u2.fab.bars.find? mine = none
              ∧ (∀ a, ¬(h.pa ≤ a ∧ a < h.pa + 64) → u2.mem.byte a = u3.mem.byte a)
              ∧ ∀ k, k < 8 → lineEl 64 (u2.mem.line h.pa) k
                  = if k = 1 then (lineEl 64 (u3.mem.line h.pa) 1 + 1) % 2 ^ 64 else lineEl 64 (u3.mem.line h.pa) k))))
  ∧ (∀ (s : State) (t : Txn) (i : Instr) (fn : Nat) (good : Prop),
    let n := tyW t.typ / 8
    let float := t.typ = 16 ∨ t.typ = 17
    (i = .atomic t ∧ Arrives s t 3 ∧ fn = t.fn ∧ good = (t.units = [] ∧ t.typ ∈ [2, 3, 6, 7, 16, 17] ∧ fn ≤ 7 ∧ (float → fn ∈ [0, 6, 7])
        ∧ homeOf t.va = t.dst ∧ t.va % n = 0))
      ∨ (i = .faddC t ∧ Arrives s t 4 ∧ fn = 0 ∧ good = (t.units = [] ∧ t.typ ∈ [2, 3, 6, 7] ∧ homeOf t.va = t.dst ∧ t.va % n = 0)) →
    let u0 := s.unqueue t
    (¬good → Answers i s u0 (u0.doneTxn t 1 0 0))
    ∧ (good → (∀ f, u0.translate t.pasid t.va n .write = .error f → HomeFaults i s u0 t f)
      ∧ ∀ g u1, u0.translate t.pasid t.va n .write = .ok ([g], u1) →
        (∀ l, u1.mem.badSeg [g] = some l → HomeLineFails i s u1 t l)
        ∧ (SegGood u1.mem g n → u1.statusHits [(g.pa, n)] = [] →
          let old := u1.mem.rd g.pa n
          ∃ u2, Answers i s u2 (u2.replyTxn t old) ∧ Changes [.mem] u1 u2
            ∧ BytesPut u1.mem u2.mem g.pa n (atomicValue fn t.typ old (t.opnd0 % 2 ^ (8 * n)) (t.opnd1 % 2 ^ (8 * n))))))
  ∧ ∀ (s : State) (t : Txn), Arrives s t 5 →
    let u0 := s.unqueue t
    let good := bankUnits t.fn t.typ = some t.units.length ∧ homeOf t.va = t.dst ∧ t.va % 64 = 0
    (¬good → Answers (.bank t) s u0 (u0.doneTxn t 1 0 0))
    ∧ (good → (∀ f, u0.translate t.pasid t.va 64 .write = .error f → HomeFaults (.bank t) s u0 t f)
      ∧ ∀ g u1, u0.translate t.pasid t.va 64 .write = .ok ([g], u1) →
        (∀ l, u1.mem.badSeg [g] = some l → HomeLineFails (.bank t) s u1 t l)
        ∧ (SegGood u1.mem g 64 → ¬UnitsGood t → Answers (.bank t) s u1 (u1.doneTxn t 3 0 0))
        ∧ (g.pa % 64 = 0 → SegGood u1.mem g 64 → u1.statusHits [(g.pa, 64)] = [] → UnitsGood t → ∃ u2, Answers (.bank t) s u2 (u2.doneTxn t 0 0 0) ∧ Changes [.mem] u1 u2
          ∧ (∀ a, ¬(g.pa ≤ a ∧ a < g.pa + 64) → u2.mem.byte a = u1.mem.byte a)
          ∧ let old := u1.mem.line g.pa
            let new := u2.mem.line g.pa
            let d0 := ((t.units[0]?).map CLine.data).getD 0
            let d1 := ((t.units[1]?).map CLine.data).getD 0
            let w := tyW t.typ
            let scale := if t.typ = 16 then unpackVal 0 16 t.opnd0 else unpackVal 0 17 (t.opnd0 % 2 ^ 32)
            (t.fn < 16 → ∀ k, k < 512 / w → lineEl w new k = bankValue (t.fn % 8) t.typ (t.fn.testBit 3) (lineEl w old k) (lineEl w d0 k) 0 0 scale % 2 ^ w)
            ∧ (t.fn = 0x20 → ∀ k, k < 512 / w → lineEl w new k = if lineEl w old k = lineEl w d0 k then lineEl w d1 k else lineEl w old k)
            ∧ (t.fn = 0x21 → ∀ k, k < 512 / w → lineEl w new k = bankValue 0x21 t.typ false (lineEl w old k) (lineEl w d0 k) 0 0 scale % 2 ^ w)
            ∧ (t.fn = 0x22 → ∀ k, k < 8 → lineEl 64 new k = if k = 0 then t.opnd0 else 0)
            ∧ (t.fn = 0x23 → ∀ k, k < 8 → lineEl 64 new k = if k = 0 then (lineEl 64 old 0 + t.opnd0) % 2 ^ 64 else lineEl 64 old k)))

/-- Request records, parcels, results and answers (R259, R271, R272, R274 to R276, R279, R280, R287, R289, R310, R361): the events REQ, COLL_OUT,
PLINE, PCOMMIT, PABORT, MARK, DONE, REPLY, MARK_ACK and ANSWER_TIMEOUT. A request record goes to the line of its number with the sender in bytes 0
to 3, its own number in bytes 4 to 7 of the line as sent (log entry 40); a parcel's lines go to the armed region of its sender only; its commit
installs a handle once every line sent has performed, and is refused before (log entry 99). An answer removes its packet; a failure goes to the
error log of the partition, to the command, or, with the last packet of an access, to the tokens that cover it (log entries 94 and 97). An answer
is to the oldest packet of its tag, and a marker's to the oldest marker (log entry 55); a parcel line that comes after its arm ended is refused,
and an abort gives kind 3 detail 0 (log entry 58); a time limit with nothing of its tag outstanding and placed changes nothing (log entry 3). -/
def Obligations.RequestsAndAnswers : Prop :=
  (∀ (s : State) (t : Txn), Arrives s t 6 →
    let u0 := s.unqueue t
    let x := nfld t.aux 16 6
    let c := 6 * 4096 + x
    let v := s.area x
    let d := ((s.ctx c).issued.toNat + 1 + (2 ^ 32 - v.origin.toNat)) % 2 ^ 32
    (t.units.length ≠ 1 → Answers (.req t) s u0 (u0.doneTxn t 1 0 0))
    ∧ ∀ k, t.units = [k] →
      (v.cap = 0 → Answers (.req t) s u0 (u0.doneTxn t 0x11 0 0))
      ∧ (v.cap ≠ 0 → v.cap.toNat < d ∨ d = 0 → Answers (.req t) s u0 (u0.doneTxn t 0x10 0 0))
      ∧ (d ≠ 0 → d ≤ v.cap.toNat →
        let va := (v.base.toNat + 64 * (d - 1)) % 2 ^ 64
        (∀ f, u0.translate t.pasid va 64 .write = .error f → HomeFaults (.req t) s u0 t f)
        ∧ ∀ g u1, u0.translate t.pasid va 64 .write = .ok ([g], u1) → SegGood u1.mem g 64 →
          (k.ok = false → Answers (.req t) s u1 (u1.doneTxn t 3 0 0))
          ∧ (k.ok = true → ∃ u2, ∃ u3 : State, Answers (.req t) s u2 (u2.doneTxn t 0 0 0) ∧ u2 = u3.finish c (nextNumber u1 c).toNat none 0
            ∧ Changes [.mem, .ctxs] u1 u3 ∧ TookNumber u1 u3 c ∧ (∀ a, ¬(g.pa ≤ a ∧ a < g.pa + 64) → u3.mem.byte a = u1.mem.byte a)
            ∧ ∀ b, b < 64 → (u3.mem.byte (g.pa + b)).toNat =
                if b < 4 then byteOf (t.src + t.ctx * 2 ^ 16) b else byteOf k.data.toNat b)))
  ∧ (∀ (s : State) (t : Txn), Arrives s t 9 →
    let u0 := s.unqueue t
    let x := nfld t.aux 16 12
    let v := s.slot x
    let n := 64 * t.units.length
    let good := t.units ≠ [] ∧ t.opnd0 % 64 = 0 ∧ t.opnd0 + n ≤ t.opnd1
    let held := { v with st := 5, peer := some (t.src, t.tag) }
    let taken := { held with lines := v.lines + t.units.length }
    let begins := (v.st = 4 ∧ t.opnd0 = 0) ∨ (v.st = 5 ∧ v.peer = some (t.src, t.tag))
    (¬good → Answers (.pline t) s u0 (u0.doneTxn t 1 0 0))
    ∧ (good → ¬begins → Answers (.pline t) s u0 (u0.doneTxn t 0x12 0 0))
    ∧ (good → begins → v.size < t.opnd1 → Answers (.pline t) s u0 (u0.doneTxn t 0x13 0 0))
    ∧ (good → begins → t.opnd1 ≤ v.size → ∀ f, u0.translateOwn v.pasid ((v.base.toNat + t.opnd0) % 2 ^ 64) n .write = .error f →
      let w := walkPieces v.pasid .write (pieces ((v.base.toNat + t.opnd0) % 2 ^ 64) n) u0
      match f with
      | .frozen => StallsIn (.pline t) s w t
      | .mem c va => Answers (.pline t) s ((w.nodeSeen v.part v.pasid va c).setSlot x held) (u0.doneTxn t 2 c 0)
      | .pageIn c _ => Answers (.pline t) s (w.setSlot x held) (u0.doneTxn t 2 c 0)
      | .parcel _ _ => Answers (.pline t) s (u0.setSlot x held) (u0.doneTxn t 2 0 0))
    ∧ (good → begins → t.opnd1 ≤ v.size → ¬UnitsGood t → ∀ segs u1,
      u0.translateOwn v.pasid ((v.base.toNat + t.opnd0) % 2 ^ 64) n .write = .ok (segs, u1) →
      Answers (.pline t) s (u1.setSlot x held) (u1.doneTxn t 3 0 0))
    ∧ (good → begins → t.opnd1 ≤ v.size → ∀ g u1, u0.translateOwn v.pasid ((v.base.toNat + t.opnd0) % 2 ^ 64) n .write = .ok ([g], u1) →
      SegGood u1.mem g n → UnitsGood t → g.pa % 64 = 0 → ∃ u2, Answers (.pline t) s u2 (u2.doneTxn t 0 0 0) ∧ Changes [.mem, .slots] u1 u2
        ∧ SlotSet s u2 x taken ∧ BytesPut u1.mem u2.mem g.pa n (unitsVal t.units)))
  ∧ (∀ (s : State) (t : Txn),
    let u0 := s.unqueue t
    let x := nfld t.aux 16 12
    let v := s.slot x
    let mine := v.st = 5 ∧ v.peer = some (t.src, t.tag)
    let gen := nextGen v.gen
    let h : BitVec 32 := gen ++ BitVec.ofNat 16 (x % 4096)
    (Arrives s t 10 → ¬mine ∨ v.lines ≠ t.opnd0 → Answers (.pcommit t) s u0 (u0.doneTxn t 0x12 0 0))
    ∧ (Arrives s t 10 → mine → v.lines = t.opnd0 → ∃ u1, Answers (.pcommit t) s (u1.finish (5 * 4096 + x) v.arm none 0)
        ((u1.finish (5 * 4096 + x) v.arm none 0).doneTxn t 0 0 h.toNat) ∧ Changes [.slots] u0 u1
        ∧ SlotSet s u1 x { v with gen := gen, st := 1, size := t.opnd1, peer := none, last := h, handles := SMap.put v.handles v.arm h })
    ∧ (Arrives s t 11 → v.st ≠ 4 → ¬mine → Answers (.pabort t) s u0 (u0.doneTxn t 0 0 0))
    ∧ (Arrives s t 11 → v.st = 4 ∨ mine → ∃ u1, Answers (.pabort t) s (u1.finish (5 * 4096 + x) v.arm (some (3, 0)) 0)
        ((u1.finish (5 * 4096 + x) v.arm (some (3, 0)) 0).doneTxn t 0 0 0) ∧ Changes [.slots] u0 u1
        ∧ SlotSet s u1 x { v with gen := gen, st := 0, peer := none }))
  ∧ (∀ (s : State) (t : Txn), Arrives s t 8 →
    let u0 := s.unqueue t
    ((∀ e ∈ s.fab.colls, ¬(e.2.busy = true ∧ bfld e.2.desc 32 12 = nfld t.aux 0 12 ∧ e.2.k = t.opnd1)) →
      ∃ v, exec (.collOut t) s = .next v ∧ v = u0.lateAnswer.fabTick)
    ∧ ∀ x v, s.collOf t = some (x, v) → ∀ c k, c ∈ s.fab.cmds → c.ctx = 8192 + x → c.kind = .coll v.desc k → k = v.k →
      (∀ e ∈ s.fab.cmds, e.ctx = 8192 + x → e = c) →
      let i := nfld t.aux 12 32
      let n := t.units.length
      let total := s.collLines v.desc
      (total < i + n → ∃ w, exec (.collOut t) s = .next w ∧ w = u0.fabTick)
      ∧ (i + n ≤ total → ∀ g u1, u0.translate c.pasid ((bfld v.desc 320 64 + 64 * i) % 2 ^ 64) (64 * n) .write = .ok ([g], u1) →
        SegGood u1.mem g (64 * n) → UnitsGood t →
        ∃ w, ∃ u2 : State, exec (.collOut t) s = .next w ∧ w = u2.fabTick ∧ Changes [.mem, .fab] u1 u2
          ∧ BytesPut u1.mem u2.mem g.pa (64 * n) (unitsVal t.units) ∧ u2.coll x = { v with got := (u2.coll x).got }
          ∧ ∀ j, j ∈ (u2.coll x).got ↔ j ∈ v.got ∨ (i ≤ j ∧ j < i + n)))
  ∧ (∀ (s : State) (t : Txn) (x : Nat), Arrives s t 12 → ∃ v, ∃ a : Txn, exec (.mark x t) s = .next v ∧ v = ((s.unqueue t).placeAnswer a).fabTick
      ∧ a.op = 0x12 ∧ a.dst = t.src ∧ a.src = s.mem.devid.toNat ∧ a.tag = t.tag ∧ a.units = [])
  ∧ (∀ (s : State) (t : Txn), let u0 := s.unqueue t
    (s.placedOf t.tag = none → (Arrives s t 0x10 → ∃ v, exec (.done t) s = .next v ∧ v = u0.lateAnswer.fabTick)
      ∧ (Arrives s t 0x11 → ∃ v, exec (.reply t) s = .next v ∧ v = u0.lateAnswer.fabTick))
    ∧ ∀ n, s.placedOf t.tag = some n →
      (Arrives s t 0x10 → ∃ v, exec (.done t) s = .next v ∧ v = (u0.pktDone t.tag n (t.opnd0 % 256) (t.opnd0 / 256 % 256) none).fabTick)
      ∧ (Arrives s t 0x11 → ∃ v, exec (.reply t) s = .next v ∧ v = (u0.pktDone t.tag n 0 0 (some (BitVec.ofNat 64 t.opnd0))).fabTick))
  ∧ (∀ (s : State) (tag i st mc : Nat) (old : Option W64) (o : OutTxn) (p : OutPkt), (s.fab.outs.find? fun o => o.tag = tag) = some o →
    o.pkts[i]? = some p →
    let t := s.pktDone tag i st mc old
    let cause := if st ≤ 4 then st else if st = 0x21 ∨ st = 0x22 then 1 else 0
    let l := s.part o.part
    let l' := t.part o.part
    let first := o.failed.getD (p.txn.dst, st, mc)
    let record (k : Token) : Token :=
      if o.pkts.length = 1 ∧ (st ≠ 0 ∨ o.failed ≠ none) ∧ k.ids.contains (match o.org with | .access _ a => a | .cmd _ q => q) = true then
        { k with count := k.count + 1, home := if k.count = 0 then first.1 else k.home, cause := if k.count = 0 then first.2.1 else k.cause
                 mcode := if k.count = 0 then first.2.2 else k.mcode }
      else k
    (cause = 0 → t.parts = s.parts)
    ∧ (cause ≠ 0 → (∀ k, k ≠ o.part → t.part k = s.part k) ∧ l' = { l with fbLog := l'.fbLog, fbLogva := l'.fbLogva }
      ∧ bfld l'.fbLog 48 16 = min (bfld l.fbLog 48 16 + 1) 0xFFFF ∧ l'.fbLog.getLsbD 47 = true
      ∧ (l.fbLog.getLsbD 47 = true → l'.fbLogva = l.fbLogva ∧ ∀ k, k < 48 → l'.fbLog.getLsbD k = l.fbLog.getLsbD k)
      ∧ (l.fbLog.getLsbD 47 = false → l'.fbLogva.toNat = p.txn.va % 2 ^ 64 ∧ bfld l'.fbLog 36 11 = p.txn.dst % 2 ^ 11
        ∧ bfld l'.fbLog 28 8 = cause ∧ bfld l'.fbLog 22 6 = p.txn.ctx % 64 ∧ bfld l'.fbLog 0 22 = 0))
    ∧ (∀ r : OutTxn, r.tag ≠ tag → (r ∈ t.fab.outs ↔ r ∈ s.fab.outs))
    ∧ (o.pkts.length = 1 → ∀ r ∈ t.fab.outs, r.tag ≠ tag)
    ∧ (1 < o.pkts.length → (t.fab.outs.find? fun o => o.tag = tag) = some
        { o with pkts := o.pkts.eraseIdx i, failed := if st = 0 then o.failed else some first })
    ∧ (∀ sid a, o.org = .access sid a → Changes [.parts, .fab, .strands] s t ∧ (∀ k, k ≠ sid → t.strand? k = s.strand? k)
      ∧ ∀ y, s.strand? sid = some y → t.strand? sid = some { y with q := { y.q with toks := y.q.toks.map fun e => (e.1, record e.2) } })
    ∧ ∀ c q x, o.org = .cmd c q → s.fabCmd c q = some x → Changes [.parts, .fab] s t
      ∧ t.fab.cmds = s.fab.cmds.map fun y => if y.ctx = x.ctx ∧ y.seq = x.seq then
          { x with old := if old = none then x.old else old
                   fail := if st = 0 then x.fail else some (x.fail.getD
                     (if st < 5 then (3, st) else if st < 0x20 then (6, st - 0x10 + 1) else (8, st - 0x20 + 1))) }
        else y)
  ∧ (∀ (s : State) (t : Txn) (x : Nat), Arrives s t 0x12 → let u0 := s.unqueue t
    ((s.ual x).sentMarks = [] → ∃ v, exec (.markAck x t) s = .next v ∧ v = u0.lateAnswer.fabTick)
    ∧ ∀ n r, (s.ual x).sentMarks = n :: r → ∃ v, exec (.markAck x t) s = .next v
      ∧ v = ((u0.setUal x { s.ual x with sentMarks := r }).markDone x n none).fabTick)
  ∧ ∀ (s : State) (tag : Nat),
    ((∀ o ∈ s.fab.outs, o.tag ≠ tag) → Unchanged (.answerTimeout tag) s)
    ∧ ∀ o, (s.fab.outs.find? fun o => o.tag = tag) = some o →
      ((∃ p ∈ o.pkts, p.txn.op ∉ [1, 2, 3, 4, 5, 6, 9, 10, 11] ∨ ∀ x, p.st = .placed x → 24 ≤ x) → Unchanged (.answerTimeout tag) s)
      ∧ ((∀ p ∈ o.pkts, p.txn.op ∈ [1, 2, 3, 4, 5, 6, 9, 10, 11] ∧ ∃ x, p.st = .placed x ∧ x < 24) →
        ∃ v, exec (.answerTimeout tag) s = .next v ∧ v = ((List.range o.pkts.length).foldl (fun u _ => u.pktDone tag 0 1 0 none) s).fabTick)

/-! ### Links -/

/-- Links (R276, R307 to R309, R311 to R322, R325): every event of a Spindle or UALink port. A sequenced flit counts when it is the one expected, else a NAK
names the one expected; a replay sends again what no ack covers, and sixteen in a row with no progress take the port DOWN; a wavelength that
goes dark or is disabled narrows the port, LOSS always raised before the port narrows or goes DOWN. What the port's sends do next is `linkTick`.
The model's choices: an event whose condition fails changes nothing (log entry 3); a WIDTH flit may tell of the far sender's own change, or of a
reduction with or without a loss of light, and until a relocked port hears the far end's mask it follows its own (29); what an ack drops and keeps of
the replay buffer, and what a fresh sequence is (63); what the records of a UALink port and a record's number hold (64); the photocurrents and powers are
free (24), as are the virtual channel and credits of a flit (96); a report of training with no lane is its beginning (100). -/
def Obligations.Links : Prop :=
  let again (s : State) (p : Nat) (act : BitVec 16) (l : List Replay) : List Wire :=
    s.links.wire ++ l.map fun r => .flit p r.flit (stripe act r.flit)
  let hears (s : State) (p typ : Nat) (f : BitVec 640) : Prop :=
    p < 8 ∧ flitOk f = true ∧ flitType f = typ ∧ ((s.spn p).st = 2 ∨ (s.spn p).st = 3)
  let widths (v : Spn) (old new : BitVec 16) : Nat :=
    if popCount 16 old.toNat = popCount 16 new.toNat then v.widths else min (v.widths + 1) 0xFFFF
  (∀ (s : State) (n i : Nat) (o : OutTxn), (s.fab.outs.find? fun o => o.pkts.any fun q => decide (q.ord = n)) = some o →
    (o.pkts.findIdx? fun q => decide (q.ord = n)) = some i → s.lostSend n = s.pktDone o.tag i 1 0 none)
  ∧ (∀ (v : Spn) (a : BitVec 16),
    ((∀ r ∈ v.buf, r.seq ≠ a) → v.ackTo a = v)
    ∧ ∀ i, (v.buf.findIdx? fun r => r.seq = a) = some i → v.acked ≤ i →
      ∃ k, k ≤ i + 1 ∧ v.ackTo a = { v with buf := v.buf.drop k, acked := i + 1 - k, tries := 0 })
  ∧ (∀ (s : State) (p typ payload : Nat), ∃ f : FlitF, f.typ = typ ∧ f.payload = BitVec.ofNat 512 (payload % 2 ^ 16)
    ∧ f.ack = (s.spn p).ack.toNat ∧ f.dst = (s.spn p).partner.toNat ∧ f.src = s.mem.devid.toNat
    ∧ Changes [.links, .free] s (s.bare p typ payload)
    ∧ (s.bare p typ payload).links = { s.links with wire := s.links.wire ++ [.flit p f.bits (stripe (activeOf (s.spn p).tx) f.bits)] })
  ∧ (∀ (s : State) (p : Nat) (m : BitVec 16), let v := s.spn p
    let h := s.healthy p
    (v.st = 2 → ∃ u : State, ∃ n, TookNumber s u (4 * 4096 + (16 + p)) ∧ n = (nextNumber s (4 * 4096 + (16 + p))).toNat
      ∧ Changes [.links, .ctxs] s u ∧ u.spn p = { v with st := 0, tx := 0, far := 0, gone := 0, rxm := 0, tries := 0, events := v.events ++ [n] }
      ∧ (∀ q, q ≠ p → u.spn q = s.spn q) ∧ s.portDown p = (u.linkEvent (16 + p) 4 0 (activeOf v.tx) 0 0 0 n).fabTick)
    ∧ (v.st ≠ 2 → v.st ≠ 3 → s.carryMask p = s ∧ s.graceful p m = s) ∧ (v.st = 2 ∨ v.st = 3 → s.carryMask p = s.bare p 5 h.toNat)
    ∧ (v.st ≠ 2 → Changes [.links] s (s.forced p) ∧ (s.forced p).spn p = { v with rxm := h } ∧ (s.forced p).links.wire = s.links.wire
      ∧ ∀ q, q ≠ p → (s.forced p).spn q = s.spn q)
    ∧ (v.st = 2 → ∃ u x : State, Changes [.links] s u
        ∧ u.spn p = { v with rx := [], ack := v.ack - BitVec.ofNat 16 v.rx.length, rxm := h, widths := widths v (activeOf v.rxm) (activeOf h) }
        ∧ (∀ q, q ≠ p → u.spn q = s.spn q) ∧ u.links.wire = s.links.wire
        ∧ x = u.linkEvent (16 + p) 1 0 (activeOf v.rxm) (activeOf h) 0 0 (u.linkIss (16 + p))
        ∧ s.forced p = if widthOf (popCount 16 h.toNat) = 0 then x.portDown p else x.carryMask p)
    ∧ (v.st = 2 ∨ v.st = 3 → (widthOf (popCount 16 m.toNat) ≠ 0 ∧ activeOf m = activeOf v.tx) ∨ (v.st = 3 ∧ widthOf (popCount 16 m.toNat) = 0) →
      Changes [.links] s (s.graceful p m) ∧ (s.graceful p m).spn p = { v with tx := m } ∧ (∀ q, q ≠ p → (s.graceful p m).spn q = s.spn q)
      ∧ (s.graceful p m).links.wire = s.links.wire)
    ∧ (v.st = 2 → widthOf (popCount 16 m.toNat) = 0 → ∃ u : State, Changes [.links] s u ∧ u.spn p = { v with tx := m }
      ∧ s.graceful p m = u.portDown p)
    ∧ (v.st = 2 ∨ v.st = 3 → widthOf (popCount 16 m.toNat) ≠ 0 → activeOf m ≠ activeOf v.tx → ∃ u : State,
      u = (s.bare p 5 (activeOf m).toNat).setSpn p { v with tx := m, widths := widths v (activeOf v.tx) (activeOf m) }
      ∧ s.graceful p m = u.linkEvent (16 + p) 2 0 (activeOf v.tx) (activeOf m) 0 0 (u.linkIss (16 + p))))
  ∧ (∀ (s : State) (p : Nat) (mask : BitVec 16) (calm : Bool), let v := s.spn p
    let x : Spn := { v with far := mask, gone := v.gone &&& mask }
    let m := mask &&& ~~~v.dis &&& ~~~(v.gone &&& mask)
    let adds := m ≠ v.tx ∧ v.tx &&& ~~~m = 0
    let lost := v.far &&& ~~~mask
    let none_ := v.buf = []
    (Changes [.links] s (s.told p mask) ∧ (s.told p mask).spn p = { v with rxm := mask, widths := widths v (activeOf v.rxm) (activeOf mask) }
      ∧ (∀ q, q ≠ p → (s.told p mask).spn q = s.spn q) ∧ (s.told p mask).links.wire = s.links.wire)
    ∧ (widthOf (popCount 16 m.toNat) = 0 ∨ adds ∨ calm = true → ∃ u : State, Changes [.links] s u ∧ u.spn p = x ∧ (∀ q, q ≠ p → u.spn q = s.spn q)
      ∧ u.links.wire = s.links.wire ∧ s.heard p mask calm = u.graceful p m)
    ∧ (widthOf (popCount 16 m.toNat) ≠ 0 → ¬adds → calm = false → ∃ u y : State, ∃ first, Changes [.links] s u ∧ (∀ q, q ≠ p → u.spn q = s.spn q)
      ∧ (∃ replays tries, u.spn p = { x with tx := m, acked := 0, widths := widths v (activeOf v.tx) (activeOf m), replays := replays, tries := tries }
        ∧ (none_ → replays = v.replays ∧ tries = v.tries) ∧ (¬none_ → replays = min (v.replays + 1) 0xFFFFFF ∧ tries = v.tries + 1))
      ∧ u.links.wire = again s p (activeOf m) v.buf ∧ (none_ → first = 0) ∧ (∀ r l, v.buf = r :: l → first = r.seq)
      ∧ (lost ≠ 0 ∧ lost &&& ~~~v.gone = 0 → y = u)
      ∧ (¬(lost ≠ 0 ∧ lost &&& ~~~v.gone = 0) →
        y = u.linkEvent (16 + p) 2 0 (activeOf v.tx) (activeOf m) first v.buf.length (u.linkIss (16 + p)))
      ∧ s.heard p mask calm = if 16 ≤ (y.spn p).tries then y.portDown p else y))
  ∧ (∀ (s : State) (p : Nat) (f : BitVec 640),
    (¬hears s p 1 f → Unchanged (.dataFlit p f) s) ∧ (¬hears s p 0 f → Unchanged (.idleFlit p f) s) ∧ (¬hears s p 4 f → Unchanged (.nak p f) s)
    ∧ (¬hears s p 2 f → Unchanged (.marker p f) s) ∧ (¬hears s p 3 f → Unchanged (.markerAck p f) s) ∧ (¬hears s p 5 f → Unchanged (.width p f) s)
    ∧ Unchanged (.flitCrcFailure p f) s
    ∧ (hears s p 0 f → ∃ t, exec (.idleFlit p f) s = .next t ∧ t = (s.takeAck p f).linkTick (16 + p))
    ∧ (hears s p 4 f → ∃ t, exec (.nak p f) s = .next t ∧ t = ((s.takeAck p f).replay p).linkTick (16 + p))
    ∧ (∀ i typ, (i, typ) ∈ [(Instr.dataFlit p f, 1), (.marker p f, 2), (.markerAck p f, 3)] → hears s p typ f →
      flitSeq f ≠ (s.spn p).ack + 1 → ∃ t, exec i s = .next t ∧ t = ((s.takeAck p f).bare p 4 ((s.spn p).ack + 1).toNat).linkTick (16 + p))
    ∧ (hears s p 1 f → flitSeq f = (s.spn p).ack + 1 →
      let line : CLine := { data := flitPayload f, ok := lineCheck (flitPayload f) = bfld f 560 16 }
      let rx := (if flitSop f then [] else (s.spn p).rx) ++ [line]
      ∃ t, ∃ u : State, exec (.dataFlit p f) s = .next t ∧ t = u.linkTick (16 + p) ∧ (u.spn p).ack = (s.spn p).ack + 1 ∧ u.mem = s.mem
        ∧ (flitEop f = false → (u.spn p).rx = rx ∧ u.fab = s.fab)
        ∧ ∀ h us, flitEop f = true → rx = h :: us → (u.spn p).rx = []
          ∧ (h.ok = true → u.fab = { s.fab with loop := s.fab.loop ++ [{ hdr := h.data, units := us }] })
          ∧ (h.ok = false → 16 ≤ bfld h.data 0 8 → u.fab = s.fab)
          ∧ (h.ok = false → bfld h.data 0 8 < 16 → ∃ x : State, x.fab = s.fab
            ∧ u = x.placeAnswer (x.doneTxn { hdr := h.data, units := us } 3 0 0)))
    ∧ (hears s p 2 f → flitSeq f = (s.spn p).ack + 1 → ∃ t, ∃ u : State, exec (.marker p f) s = .next t ∧ t = u.linkTick (16 + p)
      ∧ Changes [.links, .free] s u ∧ (u.spn p).ack = (s.spn p).ack + 1 ∧ (u.spn p).macks = (s.spn p).macks + 1)
    ∧ (hears s p 3 f → flitSeq f = (s.spn p).ack + 1 → ∃ t, ∃ u : State, exec (.markerAck p f) s = .next t ∧ Changes [.links, .free] s u
      ∧ (u.spn p).ack = (s.spn p).ack + 1
      ∧ ((s.spn p).sentMarks = [] → t = u.linkTick (16 + p))
      ∧ ∀ n r, (s.spn p).sentMarks = n :: r → (u.spn p).sentMarks = r ∧ t = (u.markDone (16 + p) n none).linkTick (16 + p))
    ∧ (hears s p 5 f →
      let w := ({ s with free := s.free + 1 } : State).takeAck p f
      let mask : BitVec 16 := BitVec.ofNat 16 (bfld f 0 16)
      ∃ t, exec (.width p f) s = .next t ∧ ((mask ≠ 0 ∧ activeOf mask = mask ∧ t = (w.told p mask).linkTick (16 + p))
        ∨ ∃ calm, t = (w.heard p mask calm).linkTick (16 + p))))
  ∧ (∀ (s : State) (p : Nat), let v := s.spn p
    (¬(p < 8 ∧ (v.st = 2 ∨ v.st = 3)) ∨ v.buf.length ≤ v.acked → Unchanged (.replayTimeout p) s)
    ∧ (p < 8 → v.st = 2 ∨ v.st = 3 → v.acked < v.buf.length → ∃ t, ∃ u : State, exec (.replayTimeout p) s = .next t
      ∧ t = (if 16 ≤ v.tries + 1 then u.portDown p else u) ∧ Changes [.links] s u
      ∧ u.spn p = { v with replays := min (v.replays + 1) 0xFFFFFF, tries := v.tries + 1 } ∧ (∀ q, q ≠ p → u.spn q = s.spn q)
      ∧ u.links.wire = again s p (activeOf v.tx) (v.buf.drop v.acked))
    ∧ (8 ≤ p ∨ v.st = 1 ∨ v.st = 3 ∨ v.st = 4 → Unchanged (.portGoDark p) s)
    ∧ (p < 8 → v.st = 2 → ∃ t, exec (.portGoDark p) s = .next t ∧ Changes [.links, .ctxs] s t ∧ TookNumber s t (4 * 4096 + (16 + p))
      ∧ t.spn p = { v with st := 3, events := v.events ++ [(nextNumber s (4 * 4096 + (16 + p))).toNat] } ∧ ∀ q, q ≠ p → t.spn q = s.spn q)
    ∧ (p < 8 → v.st = 0 → ∃ t, ∃ u : State, exec (.portGoDark p) s = .next t ∧ t = u.fabTick ∧ (u.spn p).st = 4)
    ∧ (8 ≤ p ∨ ¬(v.st = 0 ∨ v.st = 4) → Unchanged (.portRelock p) s)
    ∧ (p < 8 → v.st = 0 ∨ v.st = 4 → ∃ t, exec (.portRelock p) s = .next t ∧ Changes [.links] s t
      ∧ t.spn p = { v with st := 1, dark := decide (v.st = 4) } ∧ ∀ q, q ≠ p → t.spn q = s.spn q)
    ∧ (8 ≤ p ∨ v.st ≠ 3 ∨ v.acked < v.buf.length ∨ v.rx ≠ [] → Unchanged (.darkingComplete p) s)
    ∧ (p < 8 → v.st = 3 → v.buf.length ≤ v.acked → v.rx = [] → ∃ t, ∃ u : State, exec (.darkingComplete p) s = .next t ∧ t = u.fabTick
      ∧ Changes [.links] s u ∧ u.spn p = { v with st := 4, tx := 0 })
    ∧ (8 ≤ p ∨ v.st ≠ 1 → Unchanged (.relockTimeout p) s ∧ ∀ partner pkind, Unchanged (.relockComplete p partner pkind) s)
    ∧ (p < 8 → v.st = 1 → ∃ t, ∃ u : State, exec (.relockTimeout p) s = .next t ∧ Changes [.links] s u ∧ u.spn p = { v with st := 0, dark := false }
      ∧ ∃ w : State, w = u.linkEvent (16 + p) 6 0 0 0 0 0 (u.linkIss (16 + p))
        ∧ t = (w.linkEvent (16 + p) 4 0 0 0 0 0 (w.linkIss (16 + p))).fabTick)
    ∧ (∀ partner pkind, 12 < popCount 16 v.dis.toNat ∨ 2048 ≤ partner ∨ 3 ≤ pkind ∨ (∃ w, w < 16 ∧ (s.ring (16 * p + w)).lock = false) →
      Unchanged (.relockComplete p partner pkind) s)
    ∧ (∀ partner pkind, p < 8 → v.st = 1 → (∀ w, w < 16 → (s.ring (16 * p + w)).lock = true) → popCount 16 v.dis.toNat ≤ 12 → partner < 2048 →
      pkind < 3 → ∃ t, ∃ u : State, ∃ first n, exec (.relockComplete p partner pkind) s = .next t
        ∧ t = (u.linkEvent (16 + p) 5 0 0 (u.txActive p) first n (u.linkIss (16 + p))).linkTick (16 + p)
        ∧ (u.spn p).st = 2 ∧ (u.spn p).partner = BitVec.ofNat 11 partner ∧ (u.spn p).pkind = BitVec.ofNat 2 pkind ∧ (u.spn p).events = []
        ∧ (∀ w, w < 16 → (u.ring (16 * p + w)).locked = true) ∧ (u.spn p).tx = u.healthy p
        ∧ (u.spn p).far = u.healthy p ∧ (u.spn p).rxm = u.healthy p
        ∧ (v.dark = false → v.former = some (BitVec.ofNat 11 partner) →
          (u.spn p).buf = v.buf ∧ (u.spn p).seq = v.seq ∧ n = v.buf.length - v.acked)
        ∧ (v.dark = true ∨ v.former ≠ some (BitVec.ofNat 11 partner) → (u.spn p).buf = [] ∧ (u.spn p).seq = 0 ∧ (u.spn p).ack = 0)))
  ∧ (∀ (s : State) (p : Nat) (dark : BitVec 16),
    let lit (k : Nat) : Prop := k / 16 = p ∧ dark.getLsbD (k % 16) = true ∧ (s.ring k).pd0 ≠ 0 ∧ (s.ring k).pd0.toNat ≤ 8 * (s.ring k).pd.toNat
    ((8 ≤ p ∨ ∀ k, ¬lit k) → Unchanged (.lossOfLight p dark) s)
    ∧ (p < 8 → (∃ k, lit k) → ∃ t, ∃ u : State, exec (.lossOfLight p dark) s = .next t
      ∧ t = (u.forced p).linkTick (16 + p) ∧ Changes [.links, .free] s u
      ∧ ∀ k, let r := s.ring k
        (lit k → (u.ring k).lol = true ∧ (u.ring k).locked = false ∧ (u.ring k).pd0 = r.pd0 ∧ 8 * (u.ring k).pd.toNat < r.pd0.toNat)
        ∧ (¬lit k → u.ring k = r)))
  ∧ (∀ (s : State) (p w : Nat), let r := s.ring (16 * p + w)
    (8 ≤ p ∨ 16 ≤ w ∨ r.lock = false ∨ r.healthy = true → Unchanged (.wavelengthRestored p w) s)
    ∧ (p < 8 → w < 16 → r.lock = true → r.healthy = false → ∃ t, ∃ u : State, exec (.wavelengthRestored p w) s = .next t
      ∧ Changes [.links, .free] s u ∧ (u.ring (16 * p + w)).healthy = true ∧ (∀ k, k ≠ 16 * p + w → u.ring k = s.ring k)
      ∧ (∀ q, u.spn q = s.spn q) ∧ t = if u.healthy p = s.healthy p then u else u.carryMask p))
  ∧ (∀ (s : State) (p : Nat) (dis : BitVec 16),
    (8 ≤ p → Unchanged (.portWavelengthDisable p dis) s)
    ∧ (p < 8 → ∃ t, ∃ u : State, exec (.portWavelengthDisable p dis) s = .next t ∧ Changes [.links] s u ∧ u.spn p = { s.spn p with dis := dis }
      ∧ (if (s.spn p).st = 2 ∧ widthOf (popCount 16 (u.healthy p).toNat) = 0 then t = u.portDown p
        else t = ((if u.healthy p = s.healthy p then u else u.carryMask p).graceful p
          ((s.spn p).far &&& ~~~dis &&& ~~~(s.spn p).gone)).linkTick (16 + p))))
  ∧ (∀ (s : State) (l : Nat) (en : Bool), let v := s.laser l
    let fed (l : Nat) : BitVec 16 := BitVec.ofNat 16 (15 * 2 ^ (4 * (l % 4)))
    (32 ≤ l → Unchanged (.laserEnableWrite l en) s ∧ Unchanged (.laserFail l) s)
    ∧ (l < 32 → ∃ t, ∃ u : State, exec (.laserEnableWrite l en) s = .next t ∧ Changes [.links, .free] s u ∧ (∀ k, k ≠ l → u.laser k = s.laser k)
      ∧ (u.laser l).en = en ∧ (u.laser l).fail = v.fail ∧ (en = false → (u.laser l).ok = false ∧ (u.laser l).mon = 0)
      ∧ (en = true → v.en = true → u.laser l = v) ∧ (en = true → v.en = false → (u.laser l).ok = true)
      ∧ let w := s.spn (l / 4)
        let back := w.gone &&& ~~~(fed l)
        (en = false ∨ v.en = true ∨ back = w.gone → t = u ∧ ∀ p, u.spn p = s.spn p)
        ∧ (en = true → v.en = false → back ≠ w.gone → u.spn (l / 4) = { w with gone := back } ∧ (∀ p, p ≠ l / 4 → u.spn p = s.spn p)
          ∧ t = (u.graceful (l / 4) (w.far &&& ~~~w.dis &&& ~~~back)).linkTick (16 + l / 4)))
    ∧ (l < 32 → ∃ t, ∃ u : State, exec (.laserFail l) s = .next t ∧ Changes [.links, .free] s u ∧ (u.laser l).fail = true
      ∧ (u.laser l).ok = false ∧ (∀ k, k ≠ l → u.laser k = s.laser k)
      ∧ let act := activeOf (s.spn (l / 4)).tx
        ∃ x : State, x = u.linkEvent (16 + l / 4) 3 l act act 0 0 (u.linkIss (16 + l / 4))
          ∧ (t = x ∨ ((s.spn (l / 4)).st = 2 ∧ ∃ y : State, ∃ w, y = x.setSpn (l / 4) w
            ∧ w = { x.spn (l / 4) with gone := (x.spn (l / 4)).gone ||| ((x.spn (l / 4)).far &&& fed l) }
            ∧ t = (y.graceful (l / 4) (w.far &&& ~~~w.dis &&& ~~~w.gone)).linkTick (16 + l / 4)))))
  ∧ ∀ (s : State) (p : Nat), let v := s.ual p
    (∀ lanes partner pkind, (16 ≤ p ∨ v.st = 2 ∨ 2048 ≤ partner ∨ 3 ≤ pkind → Unchanged (.ualinkTraining p lanes partner pkind) s)
      ∧ (p < 16 → v.st ≠ 2 → partner < 2048 → pkind < 3 →
        (lanes < 4 → ∃ t, exec (.ualinkTraining p lanes partner pkind) s = .next t ∧ Changes [.links] s t
          ∧ t.ual p = { v with st := if lanes = 0 then 1 else 0 }
          ∧ ∀ q, q ≠ p → t.ual q = s.ual q)
        ∧ (4 ≤ lanes → ∃ t, ∃ u : State, exec (.ualinkTraining p lanes partner pkind) s = .next t ∧ Changes [.links] s u
          ∧ u.ual p = { v with st := 2, partner := BitVec.ofNat 11 partner, pkind := BitVec.ofNat 2 pkind }
          ∧ t = (u.linkEvent p 5 0 0 0 0 0 (u.linkIss p)).linkTick p)))
    ∧ (16 ≤ p ∨ v.st ≠ 2 → Unchanged (.ualinkPortDown p) s ∧ ∀ tag, Unchanged (.ualinkReadRequest p tag) s)
    ∧ (p < 16 → v.st = 2 → (∃ t, ∃ u : State, exec (.ualinkPortDown p) s = .next t ∧ Changes [.links] s u
        ∧ u.ual p = { v with st := 0, partner := 0, pkind := 0 } ∧ t = (u.linkEvent p 4 0 0 0 0 0 (u.linkIss p)).fabTick)
      ∧ ∀ tag, ∃ t, exec (.ualinkReadRequest p tag) s = .next t ∧ Changes [.links] s t
        ∧ t.links = { s.links with wire := s.links.wire ++ [.unsupported p tag] })

/-! ### Clocks, rails and the memory stack -/

/-- Power and the memory stack (R134, R135, R272, R327 to R334, R346): the trim, the clock's windows and its sequencer, temperature samples, the share
window, promotion swaps, and the writes of their registers. The target code stays inside the limits written; a rail moves by 5 mV inside 550
to 950 mV; a swap exchanges the places of two frames and leaves every byte. The model's choices: what a sensor or counter reads comes with the
event, which changes nothing where its condition fails (log entries 2, 3, 77), the events of the share window (26), what ends an up-step under
CAP (78), that no swap starts for a frame locked or scrubbed (34), and where a frame lies and what counts as an access to it (104). -/
def Obligations.PowerAndStacks : Prop :=
  let others (s t : State) (c : Nat) : Prop := Changes [.power] s t ∧ ∀ k, k ≠ c → t.clk k = s.clk k
  let started (a b : Clk) : Prop :=
    if a.cur < a.target then b = { a with seq := 1, up := true, met := false }
    else if a.target < a.cur then b = { a with seq := 2, up := false } else b = a
  (∀ (s : State) (c slack : Nat), let k := s.clk c
    (32 ≤ c → Unchanged (.vtrimTick c slack) s)
    ∧ (c < 32 → ∃ t, exec (.vtrimTick c slack) s = .next t ∧ others s t c
      ∧ (slack < k.slack → k.rail + 5 ≤ 950 → t.clk c = { k with rail := k.rail + 5, cap := false, floor := false })
      ∧ (slack < k.slack → 950 < k.rail + 5 → t.clk c = { k with cap := true, floor := false, met := k.met || k.seq = 1 })
      ∧ (k.slack + 10 ≤ slack → 555 ≤ k.rail → t.clk c = { k with rail := k.rail - 5, cap := false, floor := false })
      ∧ (k.slack + 10 ≤ slack → k.rail < 555 → t.clk c = { k with cap := false, floor := true })
      ∧ (k.slack ≤ slack → slack < k.slack + 10 → t.clk c = { k with cap := false, floor := false })))
  ∧ (∀ (s : State) (c m i : Nat), let k := s.clk c
    (32 ≤ c ∨ 524288 < m + i → Unchanged (.clockWindowEnd c m i) s)
    ∧ (c < 32 → m + i ≤ 524288 →
      let busy := (524288 - (m + i)) * 256
      let new := if busy < k.thr * 524288 ∧ k.fmin < k.target then k.target - 1
        else if k.thr * 524288 < busy ∧ k.target < k.fmax then k.target + 1 else k.target
      let k1 : Clk := { k with mstall := m, istall := i, target := new }
      ∃ t, exec (.clockWindowEnd c m i) s = .next t ∧ others s t c
        ∧ if k.seq = 0 then started k1 (t.clk c) else t.clk c = k1))
  ∧ (∀ (s : State) (c : Nat), let k := s.clk c
    (32 ≤ c ∨ k.seq ≠ 1 → ∀ b, Unchanged (.clockVupEnd c b) s)
    ∧ (32 ≤ c ∨ k.seq ≠ 2 → Unchanged (.clockFswEnd c) s) ∧ (32 ≤ c ∨ k.seq ≠ 3 → Unchanged (.clockVdownEnd c) s)
    ∧ (c < 32 → k.seq = 1 → Unchanged (.clockVupEnd c (!k.met)) s ∧ ∃ t, exec (.clockVupEnd c k.met) s = .next t ∧ others s t c
        ∧ t.clk c = if k.met then { k with seq := 0, target := k.cur, met := false } else { k with seq := 2 })
    ∧ (c < 32 → k.seq = 2 → ∃ t, exec (.clockFswEnd c) s = .next t ∧ others s t c
        ∧ if k.up then started { k with seq := 0, cur := k.cur + 1, up := false } (t.clk c) else t.clk c = { k with seq := 3, cur := k.cur - 1 })
    ∧ (c < 32 → k.seq = 3 → ∃ t, exec (.clockVdownEnd c) s = .next t ∧ others s t c ∧ started { k with seq := 0 } (t.clk c)))
  ∧ (∀ (s : State) (p c : Nat) (v : W64), let k := s.clk c
    let holds := (s.part p).st = 1 ∧ ((s.part p).halves.getLsbD (2 * c) = true ∨ (s.part p).halves.getLsbD (2 * c + 1) = true)
    let lo := bfld v 0 8
    let hi := bfld v 8 8
    let good := holds ∧ bfld v 24 40 = 0 ∧ 4 ≤ lo ∧ lo ≤ hi ∧ hi ≤ 16
    (¬good → Unchanged (.clkLimitWrite p c v) s)
    ∧ (good → let k1 : Clk := { k with fmin := lo, fmax := hi, thr := bfld v 16 8, target := max lo (min hi k.target) }
      ∃ t, exec (.clkLimitWrite p c v) s = .next t ∧ others s t c ∧ if k.seq = 0 then started k1 (t.clk c) else t.clk c = k1))
  ∧ (∀ (s : State) (i : Nat) (temps : List Nat) (retry corr : Nat) (bad : List Nat), let k := s.stack i
    (8 ≤ i ∨ temps.length ≠ 16 → Unchanged (.hbmTempSample i ⟨temps, retry, corr, bad⟩) s)
    ∧ (i < 8 → temps.length = 16 → ∃ t, exec (.hbmTempSample i ⟨temps, retry, corr, bad⟩) s = .next t ∧ Changes [.mem, .power] s t
      ∧ (∀ j, j ≠ i → t.stack j = s.stack j) ∧ t.stack i = { k with temps := temps, hot := (t.stack i).hot, err := (t.stack i).err }
      ∧ bfld (t.stack i).err 44 20 = min (bfld k.err 44 20 + retry) (2 ^ 20 - 1)
      ∧ bfld (t.stack i).err 24 20 = min (bfld k.err 24 20 + corr) (2 ^ 20 - 1)
      ∧ bfld (t.stack i).err 8 16 = min (bfld k.err 8 16 + bad.length) (2 ^ 16 - 1) ∧ bfld (t.stack i).err 0 8 = bfld k.err 0 8
      ∧ t.mem = { s.mem with bad := t.mem.bad }
      ∧ (∀ l, t.mem.lineBad l = true ↔ s.mem.lineBad l = true ∨ (l ∈ bad ∧ l < 2 ^ 33))
      ∧ ∀ d, d < 16 → ((t.stack i).hot.getLsbD d = true ↔ 85 < temps.getD d 0 ∨ (k.hot.getLsbD d = true ∧ 83 ≤ temps.getD d 0))))
  ∧ (∀ (s : State) (avail : List Nat),
    (avail.length ≠ 8 → Unchanged (.shareWindowEnd avail) s)
    ∧ (avail.length = 8 → ∃ t, exec (.shareWindowEnd avail) s = .next t
      ∧ (∀ i, i < 8 → (t.stack i) = { s.stack i with avail := min (avail.getD i 0) 4096000 }) ∧ t.mem.devid = s.mem.devid ∧ t.mem.hits = []
      ∧ ((s.parts.map Prod.fst).Nodup → ∀ p, p ∈ s.parts.map Prod.fst →
        let v := s.part p
        let n := ((List.range 8).map fun i => bfld v.share 0 10 * (4096000 - min (avail.getD i 0) 4096000) / 1024).sum
        (t.part p).deficit.toNat = min (v.deficit.toNat + n) (2 ^ 64 - 1) ∧ ((t.part p).grew = true ↔ n ≠ 0)
          ∧ (t.part p) = { v with deficit := (t.part p).deficit, grew := (t.part p).grew })))
  ∧ (∀ (s : State) (p : Nat) (v : W64),
    let others := (s.parts.filter fun e => decide (e.1 ≠ p)).map fun e => bfld e.2.share 0 10
    let good := (s.part p).st = 1 ∧ bfld v 10 54 = 0 ∧ others.sum + v.toNat ≤ 1024
    (¬good → Unchanged (.bwShareWrite p v) s)
    ∧ (good → ∃ t, exec (.bwShareWrite p v) s = .next t ∧ Changes [.parts] s t ∧ t.part p = { s.part p with share := v }
      ∧ ∀ q, q ≠ p → t.part q = s.part q))
  ∧ (∀ (s : State) (i a b da db na nb : Nat), let k := s.stack i
    let good := i < 8 ∧ s.power.promote = true ∧ s.power.thr.toNat ≤ na ∧ nb < s.power.thr.toNat ∧ k.swap = none ∧ a ≠ b ∧ a < 2 ^ 23 ∧ b < 2 ^ 23
      ∧ SMap.get 0 s.mem.hits a = na ∧ SMap.get 0 s.mem.hits b = nb
      ∧ s.power.dieOf (k.placeOf a) = 16 * i + da ∧ s.power.dieOf (k.placeOf b) = 16 * i + db
      ∧ da < db ∧ db < 16 ∧ k.hot.getLsbD db = false
      ∧ (∀ j, da < j → j < db → k.hot.getLsbD j = true) ∧ a ∉ s.mem.locked ∧ b ∉ s.mem.locked
      ∧ ∀ e ∈ s.mem.scrubs, e.1 ≠ a ∧ e.1 ≠ b
    (¬good → Unchanged (.promotionSwap i ⟨a, na⟩ ⟨b, nb⟩ da db) s)
    ∧ (good → ∃ t, exec (.promotionSwap i ⟨a, na⟩ ⟨b, nb⟩ da db) s = .next t ∧ Changes [.mem, .power] s t
      ∧ t.mem = { s.mem with locked := s.mem.locked ++ [a, b] } ∧ t.stack i = { k with swap := some (a, b) }
      ∧ ∀ j, j ≠ i → t.stack j = s.stack j))
  ∧ (∀ (s : State) (i : Nat) (bad : List Nat), let k := s.stack i
    (k.swap = none → Unchanged (.swapComplete ⟨i, bad⟩) s)
    ∧ ∀ a b, k.swap = some (a, b) → a ≠ b → ∃ t, ∃ u : State, exec (.swapComplete ⟨i, bad⟩) s = .next t ∧ t = u.thaw ∧ Changes [.mem, .power] s u
      ∧ u.mem = { s.mem with bad := u.mem.bad, locked := s.mem.locked.filter fun f => decide (f ≠ a) && decide (f ≠ b) }
      ∧ (∀ l, u.mem.lineBad l = true ↔ s.mem.lineBad l = true ∨ (l ∈ bad ∧ (l / 1024 = a ∨ l / 1024 = b) ∧ l < 2 ^ 33))
      ∧ bfld (u.stack i).err 8 16 = min (bfld k.err 8 16 + bad.countP fun l => decide (l / 1024 = a) || decide (l / 1024 = b)) (2 ^ 16 - 1)
      ∧ (∀ j, j ≠ i → u.stack j = s.stack j) ∧ (u.stack i).swap = none
      ∧ (u.stack i).swaps = min (k.swaps + 1) (2 ^ 26 - 1) ∧ (u.stack i).placeOf a = k.placeOf b ∧ (u.stack i).placeOf b = k.placeOf a
      ∧ ∀ f, f ≠ a → f ≠ b → (u.stack i).placeOf f = k.placeOf f)
  ∧ (∀ (s : State) (v : W64),
    let good := s.entriesHeld ≤ bfld v 0 16 ∧ (s.entriesHeld = 0 ∨ bfld v 16 48 = bfld s.chuck.ctx 16 48)
    (¬good → Unchanged (.chuckCtxWrite v) s)
    ∧ (good → ∃ t, exec (.chuckCtxWrite v) s = .next t ∧ Changes [.chuck] s t ∧ t.chuck = { s.chuck with ctx := v }))
  ∧ ∀ (s : State) (x : Nat) (v : W64),
    (64 ≤ x → Unchanged (.reqCapWrite x v) s)
    ∧ (x < 64 → ∃ t, exec (.reqCapWrite x v) s = .next t ∧ Changes [.fab] s t ∧ (t.area x).cap.toNat = bfld v 0 32
      ∧ (t.area x).base = (s.area x).base ∧ (t.area x).origin.toNat = (s.ctx (6 * 4096 + x)).issued.toNat % 2 ^ 32
      ∧ ∀ y, y ≠ x → t.area y = s.area y)

/-! ### Queues, nodes and management -/

/-- Packets (R21 to R25, R30, R223, R336, R337, R340 to R344, R347): LAUNCH, COPY, SIGNAL, WAIT, REFINE, CUBE and the reserved types, and the events
around a queue. A packet is fetched only from the queue served next, once; a good one makes its node CREATED with its counter, a malformed one
leaves a handler packet with its code and is accepted. A fetch from a host ring goes on only with its page translated, and a request is asked for
once. The model's choices: an event whose condition fails changes nothing (log entry 3), the checks of a REFINE packet's block (31), doorbells as
counts (32), a ring that cannot be read and a doorbell of a queue in ERROR or not enabled (74), and when a translation is asked for and what it
covers (95). -/
def Obligations.HostPackets : Prop :=
  (∀ (s : State) (i : Nat) (p : Pkt) (c : Instr) (ty : Prop) (act : State → Taken),
    (c = .launchPacket i p ∧ ty = (pktType p = 1) ∧ act = State.launch i p) ∨ (c = .copyPacket i p ∧ ty = (pktType p = 2) ∧ act = State.copyPkt i p)
      ∨ (c = .signalPacket i p ∧ ty = (pktType p = 3) ∧ act = State.signalPkt i p) ∨ (c = .waitPacket i p ∧ ty = (pktType p = 4) ∧ act = State.waitPkt i p)
      ∨ (c = .refinePacket i p ∧ ty = (pktType p = 5) ∧ act = State.refinePkt i p) ∨ (c = .cubePacket i p ∧ ty = (pktType p = 7) ∧ act = State.cubePkt i p)
      ∨ (c = .reservedPacketType i p ∧ ty = (pktType p = 0 ∨ 8 ≤ pktType p) ∧ act = Taken.bad 0x04) →
    (s.served i = false ∨ ¬ty ∨ ((s.queue i).inHost = true ∧ s.translated i = false) → Unchanged c s)
    ∧ (ty → s.served i = true → (s.queue i).inHost = false →
      (∀ code va, s.ringPkt i = .error (.pageIn code va) → ∃ t, exec c s = .next t ∧ t = ((s.ringTried i).holdQueue i va code).waitQueue i)
      ∧ (s.ringPkt i = .error .frozen → ∃ t, exec c s = .next t ∧ t = (s.ringTried i).waitQueue i)
      ∧ (∀ code va, s.ringPkt i = .error (.mem code va) → ∃ t, exec c s = .next t
        ∧ t = ((s.ringTried i).nodeSeen (s.queue i).part (s.queue i).pasid va code).refuseQueue i)
      ∧ (∀ k va, s.ringPkt i = .error (.parcel k va) → ∃ t, exec c s = .next t ∧ t = s.refuseQueue i)
      ∧ (∀ r u, s.ringPkt i = .ok (r, u) → r ≠ p → Unchanged c s))
    ∧ ∀ u, ty → Fetched s i p u →
      (∀ r, act u = .ok r → ∃ t, exec c s = .next t ∧ t = r.accept i)
      ∧ (∀ code r, act u = .bad code r → (s.queue i).off = (u.queue i).off → Malformed c s r i p code)
      ∧ (∀ r, act u = .hold r → exec c s = .next (r.waitQueue i)))
  ∧ (∀ (s : State) (i : Nat), let q := s.queue i
    let open_ := q.en = true ∧ s.fnOpen q = true ∧ q.err = false ∧ q.qrec.getLsbD 83 = false ∧ q.stopped = false ∧ q.head < q.tail ∧ q.comps = []
      ∧ ∀ e ∈ s.host.pend, e.1 ≠ some i
    (s.served i = true ↔ s.nextQueue = some i ∨ (q.waits = true ∧ open_))
    ∧ ((s.host.queues.map Prod.fst).Nodup → s.nextQueue = some i → open_ ∧ q.waits = false ∧ (q.inHost = true → s.translated i = true)
      ∧ ∀ e ∈ s.host.queues, s.queueReady e.1 e.2 = true → bfld e.2.qrec 80 3 ≤ bfld q.qrec 80 3)
    ∧ (q.en = true → (s.waitQueue i).queue i = { q with waits := true } ∧ Changes [.host] s (s.waitQueue i) ∧ ∀ j, j ≠ i → (s.waitQueue i).queue j = s.queue j))
  ∧ (∀ (u : State) (i : Nat) (p : Pkt), (bfld p.hdr 8 120 ≠ 0 ∨ p.q1 ≠ 0 ∨ p.q2 ≠ 0 ∨ p.q3 ≠ 0 ∨ p.q4 ≠ 0 ∨ p.q5 ≠ 0 → State.launch i p u = .bad 0x05 u)
    ∧ (bfld p.hdr 8 120 = 0 → p.q1 = 0 → p.q2 = 0 → p.q3 = 0 → p.q4 = 0 → p.q5 = 0 →
      (p.q0.toNat % 64 ≠ 0 → State.launch i p u = .bad 0x01 u)
      ∧ ∀ v w, p.q0.toNat % 64 = 0 → u.readFor (u.queue i).pasid p.q0.toNat 256 = .ok (v, w) → (w.queue i) = (u.queue i) →
        let l := BitVec.ofNat 2048 v
        let n := lpbF l 512 16
        let part := u.part (u.queue i).part
        let inRange (k : Nat) : Prop := part.nodeLo ≤ k ∧ k < part.nodeLo + part.nodeN
        let ctr := (u.node n).ctr + BitVec.ofNat 16 (lpbF l 528 16)
        (lpbFieldOk u.mem.devid.toNat p.q0.toNat l = false → State.launch i p u = .bad 0x01 w)
        ∧ (lpbFieldOk u.mem.devid.toNat p.q0.toNat l = true → lpbRangeOk l = false → State.launch i p u = .bad 0x02 w)
        ∧ (lpbFieldOk u.mem.devid.toNat p.q0.toNat l = true → lpbRangeOk l = true → w.chuck = u.chuck → w.parts = u.parts →
          (¬(inRange n ∧ (u.node n).st = .free ∧ ∀ k ∈ lpbSucc l, inRange k) → State.launch i p u = .bad 0x03 w)
          ∧ (inRange n → (u.node n).st = .free → (∀ k ∈ lpbSucc l, inRange k) → ctr ≠ 0 → lpbF l 528 16 ≠ 0 → ∃ r, State.launch i p u = .ok r
            ∧ Changes [.chuck] w r ∧ (∀ k, k ≠ n → r.node k = u.node k)
            ∧ r.node n = { kind := .launch, st := .created, ctr := ctr, succ := lpbSucc l, lpb := l, pasid := BitVec.ofNat 20 (u.queue i).pasid,
                           part := (u.queue i).part, queue := i, order := u.chuck.order }))))
  ∧ (∀ (u : State) (i : Nat) (p : Pkt) (ok : Bool) (kind : NKind) (read : State → Except Taken (BitVec 2048 × State)),
    let n := pktNode p
    let part := u.part (u.queue i).part
    let inRange (k : Nat) : Prop := part.nodeLo ≤ k ∧ k < part.nodeLo + part.nodeN
    let free := inRange n ∧ (u.node n).st = .free ∧ ∀ k ∈ pktSucc p, inRange k
    let fields := bfld p.hdr 52 12 = 0 ∧ bfld p.hdr 48 4 ≤ 4 ∧ ok = true
    (¬fields → u.makeNode i p ok kind read = .bad 0x05 u) ∧ (fields → ¬free → u.makeNode i p ok kind read = .bad 0x03 u)
    ∧ (fields → free → ∀ e, read u = .error e → u.makeNode i p ok kind read = e)
    ∧ (fields → free → ∀ l w, read u = .ok (l, w) → let ctr := (w.node n).ctr + BitVec.ofNat 16 (pktNpred p)
      ctr ≠ 0 → pktNpred p ≠ 0 → ∃ r, u.makeNode i p ok kind read = .ok r ∧ Changes [.chuck] w r ∧ (∀ k, k ≠ n → r.node k = w.node k)
        ∧ r.node n = { kind := kind, st := .created, ctr := ctr, succ := pktSucc p, lpb := l, body := [p.q0, p.q1, p.q2, p.q3, p.q4, p.q5],
                       sub := pktSub p, pasid := BitVec.ofNat 20 (u.queue i).pasid, part := (u.queue i).part, queue := i,
                       order := w.chuck.order }))
  ∧ (∀ (s : State) (n npred : Nat) (v : Node), let ctr := (s.node n).ctr + BitVec.ofNat 16 npred
    ctr = 0 ∨ npred = 0 → v.kind = .launch → bfld v.lpb 32 32 ≠ 0 → ∃ t, s.createNode n npred v = t ∧ Changes [.chuck] s t
      ∧ t.node n = { v with st := .ready, ctr := ctr, order := s.chuck.order } ∧ ∀ k, k ≠ n → t.node k = s.node k)
  ∧ (∀ (u : State) (i : Nat) (p : Pkt),
    let nothing : State → Except Taken (BitVec 2048 × State) := fun t => .ok (0, t)
    (∃ ok, State.signalPkt i p u = u.makeNode i p ok .signal nothing
      ∧ (ok = true ↔ pktSub p ≤ 1 ∧ p.q0.toNat % 8 = 0 ∧ p.q2 = 0 ∧ p.q3 = 0 ∧ p.q4 = 0 ∧ p.q5 = 0))
    ∧ (∃ ok, State.copyPkt i p u = u.makeNode i p ok .copy nothing
      ∧ (ok = true ↔ pktSub p = 0 ∧ p.q0.toNat < 256 ∧ u.ctxOwn (u.queue i).part p.q0.toNat = true ∧ p.q1.toNat % 64 = 0
          ∧ p.q4.toNat ≤ 12 ∧ p.q5 = 0))
    ∧ (∃ ok, State.waitPkt i p u = u.makeNode i p ok .wait nothing
      ∧ (ok = true ↔ ((pktSub p = 0 ∧ p.q0.toNat % 8 = 0) ∨ (pktSub p = 1 ∧ p.q0.toNat < 65536 ∧ ctxValid p.q0.toNat = true))
          ∧ p.q2 = 0 ∧ p.q3 = 0 ∧ p.q4 = 0 ∧ p.q5 = 0))
    ∧ (∃ ok, State.refinePkt i p u = u.makeNode i p ok .refine (fun t => t.readLpb i p.q2.toNat)
      ∧ (ok = true ↔ pktSub p = 0 ∧ 3 * 4096 ≤ p.q0.toNat ∧ p.q0.toNat < 3 * 4096 + 16 ∧ u.ctxOwn (u.queue i).part p.q0.toNat = true
          ∧ p.q1.toNat % 256 = 0 ∧ p.q2.toNat % 64 = 0 ∧ p.q3 = 0 ∧ p.q4 = 0 ∧ p.q5 = 0))
    ∧ (∃ ok, State.cubePkt i p u = u.makeNode i p ok .cube nothing
      ∧ (ok = true → pktSub p = 0 ∧ 4096 ≤ p.q0.toNat ∧ p.q0.toNat < 4104 ∧ p.q1.toNat % 64 = 0 ∧ p.q2.toNat % 32 = 0 ∧ p.q3.toNat % 32 = 0
          ∧ p.q5.toNat % 4 = 0)))
  ∧ (∀ (s : State) (n : Nat), let v := s.node n
    (v.kind ≠ .wait ∨ v.st ≠ .active → Unchanged (.waitNodeSatisfied n) s)
    ∧ (v.kind = .wait → v.st = .active →
      let want := (v.body.getD 1 0).toNat
      (v.sub = 1 → let c := (v.body.getD 0 0).toNat % 65536
        ((s.ctx c).counter.toNat < want → ∃ t, exec (.waitNodeSatisfied n) s = .next t ∧ t = s.setNode n { v with told := 0 })
        ∧ (want ≤ (s.ctx c).counter.toNat → ∃ t, exec (.waitNodeSatisfied n) s = .next t ∧ t = s.nodeDone n))
      ∧ (v.sub ≠ 1 → ∀ x u, s.readFor v.pasid.toNat (v.body.getD 0 0).toNat 8 = .ok (x, u) →
        (x < want → ∃ t, exec (.waitNodeSatisfied n) s = .next t ∧ t = u.setNode n { v with told := 0 }) ∧ (want ≤ x → ∃ t, exec (.waitNodeSatisfied n) s = .next t ∧ t = u.nodeDone n))))
  ∧ (∀ (s : State) (i tail : Nat), let q := s.queue i
    let on := q.en = true ∧ s.fnOpen q = true
    (¬on ∨ tail < q.tail → Unchanged (.queueTailDoorbell i tail) s)
    ∧ (on → q.tail ≤ tail → q.qrec.getLsbD 83 = false →
      (q.head + 2 ^ bfld q.qrec 85 5 < tail → Unchanged (.queueTailDoorbell i tail) s)
      ∧ (tail ≤ q.head + 2 ^ bfld q.qrec 85 5 → ∃ t, exec (.queueTailDoorbell i tail) s = .next t ∧ Changes [.host] s t
        ∧ t.queue i = { q with tail := tail } ∧ ∀ j, j ≠ i → t.queue j = s.queue j))
    ∧ (on → q.tail ≤ tail → q.qrec.getLsbD 83 = true →
      (q.head < tail → Unchanged (.queueTailDoorbell i tail) s)
      ∧ (tail ≤ q.head → ∃ t, ∃ u : State, exec (.queueTailDoorbell i tail) s = .next t ∧ Changes [.host] s u
        ∧ u.queue i = { q with tail := tail } ∧ (∀ j, j ≠ i → u.queue j = s.queue j) ∧ u.host.pend = s.host.pend ∧ t = u.pendRetry)))
  ∧ (∀ s : State, (s.host.pend = [] → s.pendRetry = s)
    ∧ ∀ src dst data, s.host.pend = [(src, dst, data)] →
      let u : State := { s with host := { s.host with pend := [] } }
      let q := s.queue dst
      (s.isHandler q = false → (∀ i, src = some i → s.pendRetry = u.setQueue i { s.queue i with err := true })
        ∧ (src = none → s.pendRetry = { u with host := { u.host with out := s.host.out ++ [{ queue := none, data := data }] } }))
      ∧ (s.isHandler q = true → q.drops = true → s.pendRetry = u.countDrop)
      ∧ (s.isHandler q = true → q.drops = false → q.isFull = true → s.pendRetry = s)
      ∧ (s.isHandler q = true → q.drops = false → q.isFull = false → s.pendRetry = u.deliver dst data))
  ∧ (∀ (s : State) (i : Nat), let q := s.queue i
    let wants := q.en = true ∧ s.fnOpen q = true ∧ q.err = false ∧ q.inHost = true ∧ q.qrec.getLsbD 83 = false ∧ q.head < q.tail ∧ q.stopped = false
      ∧ s.translated i = false ∧ ∀ e ∈ s.host.asks, e.queue = i → e.live = false ∨ e.late = true
    (wants → (s.ask i).host = { s.host with asks := s.host.asks ++ [{ queue := i, pasid := q.pasid, pri := false, late := false, live := true }] })
    ∧ (¬wants → s.ask i = s) ∧ Changes [.host] s (s.ask i))
  ∧ ∀ (s : State) (i : Nat), let q := s.queue i
    let fetching := q.en = true ∧ s.fnOpen q = true ∧ q.err = false ∧ q.inHost = true ∧ q.qrec.getLsbD 83 = false ∧ q.head < q.tail ∧ q.stopped = false
    let waits (e : Ask) : Prop := e.live = true ∧ e.pasid = q.pasid ∧ fetching
    let without (e : Ask) : State := { s with host := { s.host with asks := s.host.asks.erase e } }
    let late (e : Ask) (t : State) : Prop := Changes [.host] s t ∧ t.host.asks = s.host.asks.erase e
      ∧ bfld t.host.late 32 32 = bfld s.host.late 32 32 ∧ bfld t.host.late 0 32 = min (bfld s.host.late 0 32 + 1) (2 ^ 32 - 1)
    -- a translation request
    (s.askOf i false = none → ∀ p, Unchanged (.atsCompletion i p) s)
    ∧ (∀ e, s.askOf i false = some e →
      (e.late = true → ∀ p, ∃ t, exec (.atsCompletion i p) s = .next t ∧ late e t)
      ∧ (e.late = false → ¬waits e → ∀ p, exec (.atsCompletion i p) s = .next (without e))
      ∧ (e.late = false → waits e → (∃ t, exec (.atsCompletion i none) s = .next t ∧ t = s.askAgain e { e with pri := true })
        ∧ ∀ p, ∃ u : State, u = { without e with host := { (without e).host with ats := s.host.ats ++ [(q.pasid, q.hostPage)] } }
          ∧ (pktType p = 1 → exec (.atsCompletion i (some p)) s = exec (.launchPacket i p) u)
          ∧ (pktType p = 3 → exec (.atsCompletion i (some p)) s = exec (.signalPacket i p) u)
          ∧ (pktType p = 6 → pktSub p = 3 → exec (.atsCompletion i (some p)) s = exec (.mgmtNfree i p) u)))
    -- a page request
    ∧ (s.askOf i true = none → Unchanged (.priTimeout i) s ∧ ∀ b, Unchanged (.priPageResponse i b) s)
    ∧ ∀ e, s.askOf i true = some e →
      (e.late = true → Unchanged (.priTimeout i) s ∧ ∀ b, ∃ t, exec (.priPageResponse i b) s = .next t ∧ late e t)
      ∧ (e.late = false → ¬waits e → Unchanged (.priTimeout i) s ∧ ∀ b, exec (.priPageResponse i b) s = .next (without e))
      ∧ (e.late = false → waits e → (∃ t, exec (.priTimeout i) s = .next t ∧ t = s.refuseQueue i)
        ∧ (∃ t, exec (.priPageResponse i true) s = .next t ∧ t = s.askAgain e { e with pri := false })
        ∧ ∃ t, exec (.priPageResponse i false) s = .next t ∧ t = (without e).refuseQueue i)

/-- Management (R25, R136, R181, R189, R280, R323, R335, R337 to R340, R343, R345 to R350): the requests of MGMT and the events that end them. A
request of a queue that is no PF's is malformed; a refused one changes nothing but its completion; one that acts does what its row says, and
answers 0. The model's choices: a lease that an INVAL touches ends (log entry 19), which pages migrate (34), the patch-store words of 4 bytes
(15), a `PREEMPT` of what does not exist (72), what R338 to R350 leave open of each request (73), and that a request of a queue that is not served, or
a packet of another type, changes nothing (3). -/
def Obligations.Management : Prop :=
  let requests (i : Nat) (p : Pkt) : List (Instr × Nat) := [(.mgmtCsrw i p, 1), (.mgmtPreempt i p, 2), (.mgmtNfree i p, 3), (.mgmtInval i p, 4),
    (.mgmtMigrate i p, 5), (.mgmtScrub i p, 6), (.mgmtRevoke i p, 7), (.mgmtRoute i p, 8), (.mgmtPcreate i p, 9), (.mgmtPassign i p, 10),
    (.mgmtPteardown i p, 11), (.mgmtQcreate i p, 12), (.mgmtQdestroy i p, 13), (.mgmtVfmap i p, 14), (.mgmtPasiddown i p, 15), (.mgmtEvq i p, 16),
    (.mgmtPstage i p, 17), (.mgmtAttest i p, 18)]
  (∀ (s u : State) (i : Nat) (p : Pkt) (c : Instr) (sub : Nat), (c, sub) ∈ requests i p →
    (s.served i = false ∨ pktType p ≠ 6 → Unchanged c s)
    ∧ (Fetched s i p u → pktType p = 6 → pktSub p = sub → (s.queue i).off = (u.queue i).off →
      ((u.queue i).isPf = false → Malformed c s u i p 0x07)
      ∧ ((u.queue i).isPf = true → p.q0 = 0 ∨ p.q0.toNat % 8 ≠ 0 ∨ u.isLocal p.q0.toNat = false → Malformed c s u i p 0x05)
      ∧ ((u.queue i).isPf = true → p.q0 ≠ 0 → p.q0.toNat % 8 = 0 → u.isLocal p.q0.toNat = true → p.q5 ≠ 0 ∨ bfld p.hdr 52 12 ≠ 0 → Denied c s u i p)))
  ∧ ∀ (s u : State) (i : Nat) (p : Pkt), Fetched s i p u →
    let good (sub : Nat) : Prop := MgmtGood u i p sub
    let zero34 := p.q3 = 0 ∧ p.q4 = 0
    let zero234 := p.q2 = 0 ∧ p.q3 = 0 ∧ p.q4 = 0
    -- a register write
    (good 1 → let fields := bfld p.q1 6 10 = 0 ∧ bfld p.q1 28 4 = 0 ∧ bfld p.q1 37 27 = 0 ∧ p.q3 = 0 ∧ p.q4 = 0
      let n := bfld p.q1 16 12
      let w := u.sysWrite (bfld p.q1 0 6) (bfld p.q1 32 5) n p.q2
      (¬fields ∨ w = none → Denied (.mgmtCsrw i p) s u i p) ∧ (∀ r, fields → w = some r → Managed (.mgmtCsrw i p) s u r i p 0)
        ∧ (n < 0x800 → w = none)
        ∧ (let k := bfld p.q1 0 6
          ((n = 0x810 ∨ n = 0x811) → (u.part k).st ≠ 1 → w = none)
          ∧ ((n = 0x810 ∨ n = 0x811) → (u.part k).st = 1 → p.q2.toNat < 2 ^ 32 → ∃ r, w = some r ∧ Changes [.parts] u r
            ∧ (∀ j, j ≠ k → r.part j = u.part j) ∧ (n = 0x810 → r.part k = { u.part k with resv := p.q2.setWidth 32 })
            ∧ (n = 0x811 → r.part k = { u.part k with gerr := (u.part k).gerr &&& ~~~(p.q2.setWidth 32) })))
        ∧ ((n = 0x810 ∨ n = 0x811 ∨ n = 0x812) → 2 ^ 32 ≤ p.q2.toNat → w = none))
    -- pre-emption
    ∧ (good 2 → let scope := bfld p.q1 0 2
      let fields := bfld p.q1 2 6 = 0 ∧ bfld p.q1 9 55 = 0
        ∧ p.q2.toNat < 2 ^ (if scope = 0 then 50 else if scope = 1 then 44 else if scope = 2 then 16 else 6) ∧ zero34
      (¬fields → Denied (.mgmtPreempt i p) s u i p)
      ∧ (fields → Managed (.mgmtPreempt i p) s u (u.preemptReq scope p.q2 (p.q1.getLsbD 8)) i p 0))
    -- nodes
    ∧ (good 3 → let n := bfld p.q1 0 16
      let fields := bfld p.q1 16 48 = 0 ∧ zero234
      let held := (∃ e ∈ u.strands, e.2.id.launch.toNat = n ∧ e.2.place.resident = true) ∨ u.nodeBusy n = true
      (¬fields ∨ (u.node n).st = .free ∨ ((u.node n).st ≠ .done ∧ held) → Denied (.mgmtNfree i p) s u i p)
      ∧ (fields → (u.node n).st ≠ .free → (u.node n).st = .done ∨ ¬held → ∃ r : State, Managed (.mgmtNfree i p) s u r i p 0 ∧ r.node n = {}
        ∧ Changes [.strands, .cores, .chuck, .words, .mem, .host] u r ∧ ∀ k, k ≠ n → r.node k = u.node k))
    -- leases and migration
    ∧ (good 4 → let n := bfld p.q3 0 32 * 2 ^ (if p.q3.getLsbD 32 then 29 else 16)
      let fields := bfld p.q1 20 44 = 0 ∧ p.q2.toNat % 65536 = 0 ∧ bfld p.q3 33 31 = 0 ∧ p.q4 = 0
      (¬fields → Denied (.mgmtInval i p) s u i p)
      ∧ (fields → ∃ r : State, Managed (.mgmtInval i p) s u r i p 0 ∧ Changes [.strands, .mem] u r
        ∧ r.mem = { u.mem with tlb := u.mem.tlb.filter fun c =>
            !(decide (c.pasid = bfld p.q1 0 20) && decide (c.va < p.q2.toNat + n) && decide (p.q2.toNat < c.va + 2 ^ c.lg)) }
        ∧ ∀ k y, u.strand? k = some y → r.strand? k = some (if y.id.pasid.toNat ≠ bfld p.q1 0 20 then y else
            { y with q := { y.q with leases := y.q.leases.filter fun l => !(decide (l.va < p.q2.toNat + n) && decide (p.q2.toNat < l.va + 2 ^ l.lg)) } })))
    ∧ (good 5 → let pasid := bfld p.q1 0 20
      let va := p.q2.toNat
      let new := bfld p.q3 0 32 * 65536
      let fields := bfld p.q1 20 44 = 0 ∧ va % 65536 = 0 ∧ bfld p.q3 32 32 = 0 ∧ p.q4 = 0
      (¬fields ∨ u.migrate pasid va (bfld p.q3 0 32) = none → Denied (.mgmtMigrate i p) s u i p)
      ∧ ∀ r, fields → u.migrate pasid va (bfld p.q3 0 32) = some r → Managed (.mgmtMigrate i p) s u r i p 0 ∧ Changes [.mem] u r
        ∧ ∃ d, u.mem.walk pasid va .read = .ok d ∧ d.lg = 16
          ∧ (∃ g, r.mem.migs.getLast? = some g ∧ g = { pasid := pasid, va := va, old := d.pa, new := new, round := 0, marked := [], frozen := false })
          ∧ (d.pa % 65536 = 0 → (∀ k, k < 65536 → r.mem.byte (new + k) = u.mem.byte (d.pa + k))
              ∧ ∀ a, ¬(new ≤ a ∧ a < new + 65536) → r.mem.byte a = u.mem.byte a))
    ∧ (good 6 → (2 ^ 23 ≤ p.q1.toNat ∨ ¬zero234 → Denied (.mgmtScrub i p) s u i p)
      ∧ (p.q1.toNat < 2 ^ 23 → zero234 → ∃ r : State, exec (.mgmtScrub i p) s = .next (r.accept i) ∧ Changes [.mem] u r
        ∧ r.mem = { u.mem with scrubs := u.mem.scrubs ++ [(p.q1.toNat, u.compOf i p)] }))
    -- slots and routes
    ∧ (good 7 → let x := p.q1.toNat
      (4096 ≤ x ∨ ¬zero234 → Denied (.mgmtRevoke i p) s u i p)
      ∧ (x < 4096 → zero234 → u.slotBusy x = true → exec (.mgmtRevoke i p) s = .next (u.waitQueue i))
      ∧ (x < 4096 → zero234 → u.slotBusy x = false → Managed (.mgmtRevoke i p) s u (u.revoke x) i p 0
        ∧ ((u.slot x).st = 0 → SlotSet u (u.revoke x) x { u.slot x with gen := nextGen (u.slot x).gen })))
    ∧ (good 8 → let fields := p.q1.toNat < 2048 ∧ bfld p.q2 13 51 = 0 ∧ bfld p.q2 5 3 = 0 ∧ (bfld p.q2 0 5 < 24 ∨ bfld p.q2 0 5 = 0x1F)
        ∧ (bfld p.q2 8 5 < 24 ∨ bfld p.q2 8 5 = 0x1F) ∧ zero34
      (¬fields → Denied (.mgmtRoute i p) s u i p)
      ∧ (fields → ∃ r : State, Managed (.mgmtRoute i p) s u r.fabTick i p 0 ∧ Changes [.links] u r
        ∧ ∀ d, SMap.get 0x1F1F r.links.routes d = if d = p.q1.toNat then p.q2.setWidth 32 else SMap.get 0x1F1F u.links.routes d))
    -- partitions
    ∧ (good 9 → let k := p.q1.toNat
      let lo := p.q3.toNat
      let n := p.q4.toNat
      let fields := k < 64 ∧ p.q2 ≠ 0 ∧ lo < 65536 ∧ n ≠ 0 ∧ lo + n ≤ 65536 ∧ (u.part k).st = 0
        ∧ ∀ e ∈ u.parts, e.1 ≠ k → e.2.halves &&& p.q2 = 0 ∧ (e.2.nodeN = 0 ∨ e.2.nodeLo + e.2.nodeN ≤ lo ∨ lo + n ≤ e.2.nodeLo)
      (¬fields → Denied (.mgmtPcreate i p) s u i p)
      ∧ (fields → ∃ r : State, Managed (.mgmtPcreate i p) s u r i p 0 ∧ Changes [.parts] u r
        ∧ r.part k = { st := 1, halves := p.q2, nodeLo := lo, nodeN := n } ∧ ∀ j, j ≠ k → r.part j = u.part j))
    ∧ (good 10 → let k := bfld p.q1 0 6
      let kind := bfld p.q1 8 8
      let lo := p.q2.toNat
      let n := p.q3.toNat
      let fields := bfld p.q1 6 2 = 0 ∧ bfld p.q1 16 48 = 0 ∧ lo < 8192 ∧ n < 8192 ∧ p.q4 = 0
      (¬fields ∨ u.assignTo k kind lo n = none → Denied (.mgmtPassign i p) s u i p)
      ∧ (∀ r, fields → u.assignTo k kind lo n = some r → Managed (.mgmtPassign i p) s u r i p 0 ∧ Changes [.parts] u r ∧ ∀ j, j ≠ k → r.part j = u.part j)
      ∧ ((u.part k).st ≠ 1 ∨ 6 < kind → u.assignTo k kind lo n = none)
      ∧ ((kind = 1 ∨ kind = 3) → 64 ≤ lo ∨ 64 < lo + n → u.assignTo k kind lo n = none)
      ∧ ((u.part k).st = 1 → kind = 1 → lo < 64 → lo + n ≤ 64 → (∀ e ∈ u.parts, e.1 ≠ k → ∀ x, lo ≤ x → x < lo + n → e.2.fab.getLsbD x = false) →
        ∃ r, u.assignTo k kind lo n = some r ∧ r.part k = { u.part k with fab := (r.part k).fab }
          ∧ ∀ x, (r.part k).fab.getLsbD x = ((u.part k).fab.getLsbD x || (decide (lo ≤ x) && decide (x < lo + n)))))
    ∧ (good 11 → (64 ≤ p.q1.toNat ∨ ¬zero234 ∨ (u.part p.q1.toNat).st ≠ 1 → Denied (.mgmtPteardown i p) s u i p)
      ∧ (p.q1.toNat < 64 → zero234 → (u.part p.q1.toNat).st = 1 → Managed (.mgmtPteardown i p) s u (u.teardown p.q1.toNat) i p 0))
    -- queues, functions, PASIDs
    ∧ (good 12 → let k := bfld p.q2 0 12
      let fn := bfld p.q2 16 8
      let fields := p.q1.toNat % 64 = 0 ∧ bfld p.q2 12 4 = 0 ∧ bfld p.q2 24 40 = 0 ∧ fn ≤ 193 ∧ zero34 ∧ (u.queue k).en = false
      (¬fields → Denied (.mgmtQcreate i p) s u i p)
      ∧ ∀ v w, fields → u.readFor (u.queue i).pasid p.q1.toNat 64 = .ok (v, w) →
        let r := BitVec.ofNat 512 v
        (w.recordOk r = false → exec (.mgmtQcreate i p) s = .next ((w.writeComp { u.compOf i p with code := 7 }).accept i))
        ∧ (w.recordOk r = true → ∃ x : State, Managed (.mgmtQcreate i p) s u x i p 0 ∧ Changes [.host] w x
          ∧ x.queue k = { qrec := r, fn := fn, en := true } ∧ ∀ j, j ≠ k → x.queue j = w.queue j))
    ∧ (good 13 → let k := p.q1.toNat
      (4096 ≤ k ∨ ¬zero234 ∨ (u.queue k).en = false → Denied (.mgmtQdestroy i p) s u i p)
      ∧ (k < 4096 → zero234 → (u.queue k).en = true → ∃ r : State, Managed (.mgmtQdestroy i p) s u r.pendRetry i p 0 ∧ Changes [.host] u r
        ∧ r.queue k = {} ∧ (∀ j, j ≠ k → r.queue j = u.queue j) ∧ r.host.pend = (u.host.pend.filter fun e => decide (e.1 ≠ some k))
        ∧ r.host.asks = u.host.asks.map fun e => if e.queue = k then { e with live := false } else e))
    ∧ (good 14 → let fields := p.q1.toNat < 192 ∧ p.q2.toNat < 64 ∧ zero34 ∧ (u.part p.q2.toNat).st = 1
      (¬fields → Denied (.mgmtVfmap i p) s u i p)
      ∧ (fields → ∃ r : State, Managed (.mgmtVfmap i p) s u r i p 0 ∧ Changes [.host] u r
        ∧ (∀ f, SMap.get none r.host.vfmap f = if f = p.q1.toNat then some p.q2.toNat else SMap.get none u.host.vfmap f)
        ∧ r.host = { u.host with vfmap := r.host.vfmap, asks := r.host.asks } ∧ ∀ e ∈ u.host.asks, e ∈ r.host.asks))
    ∧ (good 15 → (2 ^ 20 ≤ p.q1.toNat ∨ ¬zero234 → Denied (.mgmtPasiddown i p) s u i p)
      ∧ (p.q1.toNat < 2 ^ 20 → zero234 → ∃ r : State, exec (.mgmtPasiddown i p) s = .next (r.accept i) ∧ Changes [.host] u r
        ∧ r.host.downs = u.host.downs ++ [(p.q1.toNat, u.compOf i p)]
        ∧ ∀ e ∈ r.host.queues, e.2.en = true → bfld e.2.qrec 108 20 = p.q1.toNat → e.2.stopped = true))
    ∧ (good 16 → let fields := p.q1.toNat < 64 ∧ p.q2.toNat < 4096 ∧ zero34 ∧ (u.part p.q1.toNat).st = 1
      (¬fields → Denied (.mgmtEvq i p) s u i p)
      ∧ (fields → ∃ r : State, Managed (.mgmtEvq i p) s u r i p 0 ∧ Changes [.parts] u r
        ∧ r.part p.q1.toNat = { u.part p.q1.toNat with evq := some p.q2.toNat } ∧ ∀ j, j ≠ p.q1.toNat → r.part j = u.part j))
    -- firmware and attestation
    ∧ (good 17 → let fields := p.q1.toNat % 64 = 0 ∧ p.q2.toNat < 2 ^ 32 ∧ zero34 ∧ u.host.pending = none
      (¬fields → Denied (.mgmtPstage i p) s u i p)
      ∧ ∀ v w, fields → u.readFor (u.queue i).pasid p.q1.toNat p.q2.toNat = .ok (v, w) →
        let n := p.q2.toNat
        let signed := ({ x := Config.patchKey.1, y := Config.patchKey.2 } : Key).verifies (digestNum (toBytes (n - 64) v))
          (nfld v (8 * (n - 64)) 256) (nfld v (8 * (n - 64) + 256) 256)
        let whole := 1152 ≤ n ∧ n % 4 = 0 ∧ n ≤ 1152 + 4 * 1024 ∧ (∀ k, k < 256 → nfld v (8 * 64 + 32 * k + 22) 9 = 0) ∧ signed = true
        (¬whole → Managed (.mgmtPstage i p) s u w i p 8)
        ∧ (whole → ∃ r : State, Managed (.mgmtPstage i p) s u r i p 0 ∧ Changes [.host] w r
          ∧ r.host = { w.host with pending := some { len := n, image := v } }))
    ∧ (good 18 → let fields := p.q2.toNat % 64 = 0 ∧ zero34
      (¬fields → Denied (.mgmtAttest i p) s u i p)
      ∧ ∀ v w, fields → u.readFor (u.queue i).pasid p.q1.toNat 32 = .ok (v, w) → ∃ r : State, exec (.mgmtAttest i p) s = .next (r.accept i) ∧ Changes [.host] w r
        ∧ ∃ a, r.host = { w.host with attests := w.host.attests ++ [a] } ∧ a.report = p.q2 ∧ a.comp = u.compOf i p ∧ bfld a.body 1280 256 = v % 2 ^ 256)

/-- What ends a request that answers later, and the rest of the host's side (R137, R192, R231, R335, R336, R339, R345, R347 to R351, R360): scrubs,
teardowns, completions that waited, patch sets, reports, waiting writes and saves, host writes and the device reset. A scrubbed frame reads zero,
and no fetch holds its old bytes; a host write puts its bytes in memory, waits for a frame that is busy, or goes to one of the windows of the BAR
(log entry 37), and one outside faults. The model's further choices: an event whose condition fails changes nothing (log entry 3), the order of a
teardown's steps (35), the form of a report's signature, under a key that nothing fixes (15), and what a reset keeps (76). -/
def Obligations.HostSide : Prop :=
  (∀ (s : State) (f : Nat),
    ((∀ e ∈ s.mem.scrubs, e.1 ≠ f) ∨ f ∈ s.mem.locked → Unchanged (.scrubComplete f) s)
    ∧ ∀ e, (s.mem.scrubs.find? fun e => e.1 = f) = some e → f ∉ s.mem.locked → ∃ t, ∃ u : State, exec (.scrubComplete f) s = .next t ∧ t = u.writeComp e.2
      ∧ Changes [.mem, .strands] s u
      ∧ (∀ k y, s.strand? k = some y → u.strand? k = some { y with fetched := y.fetched.filter fun c =>
          !(decide (f * 65536 ≤ c.1) && decide (c.1 < f * 65536 + 65536)) })
      ∧ (∀ a, f * 65536 ≤ a → a < f * 65536 + 65536 → u.mem.byte a = 0)
      ∧ (∀ a, ¬(f * 65536 ≤ a ∧ a < f * 65536 + 65536) → u.mem.byte a = s.mem.byte a)
      ∧ (∀ l, u.mem.lineBad l = true ↔ s.mem.lineBad l = true ∧ ¬(f * 1024 ≤ l ∧ l < f * 1024 + 1024)) ∧ u.mem.scrubs = s.mem.scrubs.erase e)
  ∧ (∀ (s : State) (p : Nat), let idle := (∀ e ∈ s.strands, ¬(e.2.id.part = p ∧ e.2.place.resident = true)) ∧ s.partBusy p = false
    ((s.part p).st ≠ 2 ∨ ¬idle → Unchanged (.partitionTeardownComplete p) s)
    ∧ ((s.part p).st = 2 → idle → ∃ t, exec (.partitionTeardownComplete p) s = .next t ∧ t = (s.teardownEnd p).fabTick ∧ (s.teardownEnd p).part p = {}))
  ∧ (∀ (s : State) (pasid : Nat),
    ((∀ e ∈ s.host.downs, e.1 ≠ pasid) → Unchanged (.pasiddownComplete pasid) s)
    ∧ ∀ e, (s.host.downs.find? fun e => e.1 = pasid) = some e → ∃ t, ∃ u : State, exec (.pasiddownComplete pasid) s = .next t
      ∧ t = (u.pasidDown pasid).writeComp e.2 ∧ Changes [.host] s u ∧ u.host = { s.host with downs := s.host.downs.erase e })
  ∧ (∀ (s : State) (pasid : Nat), ∃ u : State, s.pasidDown pasid = u.pendRetry ∧ Changes [.host] s u ∧ (∀ x, x ∈ u.host.ats ↔ x ∈ s.host.ats ∧ x.1 ≠ pasid)
      ∧ (u.host.asks = s.host.asks.map fun e => if e.pasid = pasid then { e with late := true } else e) ∧ u.host.pend = s.host.pend
      ∧ ∀ q ∈ u.host.queues, q.2.en = true → bfld q.2.qrec 108 20 = pasid → q.2.stopped = true ∧ q.2.down = true)
  ∧ (∀ (s : State) (i : Nat),
    ((s.queue i).comps = [] → Unchanged (.mgmtCompletionPageInResume i) s)
    ∧ ∀ c r, (s.queue i).comps = c :: r → ∃ t, exec (.mgmtCompletionPageInResume i) s = .next t
      ∧ t = (s.setQueue i { s.queue i with comps := r }).writeComp c)
  ∧ (∀ (s : State) (c : Comp), ∀ g u, s.isLocal c.va.toNat = true → s.translate c.pasid c.va.toNat 8 .write = .ok ([g], u) → SegGood u.mem g 8 →
    Changes [.mem] u (s.writeComp c) ∧ BytesPut u.mem (s.writeComp c).mem g.pa 8 c.code)
  ∧ (∀ s : State, (s.host.pending = none → Unchanged .patchHandover s)
    ∧ ∀ x, s.host.pending = some x → ∃ t, exec .patchHandover s = .next t ∧ Changes [.host] s t
      ∧ t.host = { s.host with active := some x, pending := none, patches := t.host.patches, patchStore := t.host.patchStore }
      ∧ (∀ k, SMap.get 0 t.host.patches k = if k < 256 then BitVec.ofNat 32 (nfld x.image (8 * 64 + 32 * k) 32) else 0)
      ∧ ∀ k, SMap.get 0 t.host.patchStore k = if k < (x.len - 1152) / 4 then BitVec.ofNat 32 (nfld x.image (8 * 1088 + 32 * k) 32) else 0)
  ∧ (∀ (s : State) (a : Nat), let valid (k : Nat) : Prop :=
        (SMap.get 0 s.host.patches k).getLsbD 31 = true ∧ bfld (SMap.get 0 s.host.patches k) 0 12 = a
    ((∀ k, k < 256 → ¬valid k) → s.controlWord a = Config.rom a)
    ∧ ∀ k, k < 256 → valid k → (∀ j, j < k → ¬valid j) →
      s.controlWord a = SMap.get 0 s.host.patchStore (bfld (SMap.get 0 s.host.patches k) 12 10))
  ∧ (∀ s : State, (s.host.attests = [] → Unchanged .attestReportSigned s)
    ∧ ∀ a r, s.host.attests = a :: r → s.isLocal a.report.toNat = true → ∀ g u,
      ({ s with host := { s.host with attests := r } } : State).translate a.comp.pasid a.report.toNat 256 .write = .ok ([g], u) → SegGood u.mem g 256 →
      ∃ t, ∃ w : State, exec .attestReportSigned s = .next t ∧ t = w.writeComp a.comp ∧ Changes [.free, .mem] u w
        ∧ ∃ k, 0 < k ∧ k < P256.n ∧ let sig := signWith Config.deviceKey k (digestNum (toBytes 192 a.body.toNat))
          BytesPut u.mem w.mem g.pa 256 (a.body.toNat + (sig.1 + sig.2 * 2 ^ 256) * 2 ^ 1536))
  ∧ (∀ (s : State) (k : Nat), (s.words.length ≤ k → Unchanged (.fabricWritePageInResume k) s)
    ∧ ∀ w u, s.words[k]? = some w → (∀ v ∈ s.words.take k, v.after ≠ w.after) →
      (({ s with words := s.words.eraseIdx k } : State).wordWrite w = .stall u → ∃ t, exec (.fabricWritePageInResume k) s = .next t ∧ t = u.wordWait w)
      ∧ (({ s with words := s.words.eraseIdx k } : State).wordWrite w = .ok u → ∃ t, exec (.fabricWritePageInResume k) s = .next t
        ∧ t = (u.afterWord w.after none).fabTick)
      ∧ ∀ e d, ({ s with words := s.words.eraseIdx k } : State).wordWrite w = .fail e d u → ∃ t, exec (.fabricWritePageInResume k) s = .next t
        ∧ t = (u.afterWord w.after (some (e, d))).fabTick)
  ∧ (∀ (s : State) (sid : Nat), (s.strand? sid = none → Unchanged (.saveWritePageInResume sid) s)
    ∧ ∀ y, s.strand? sid = some y → (y.sch.saving = false → Unchanged (.saveWritePageInResume sid) s)
      ∧ (y.sch.saving = true → ∃ t, exec (.saveWritePageInResume sid) s = .next t
        ∧ t = (s.setStrand sid { y with sch := { y.sch with saving := false } }).settle sid))
  ∧ (∀ (s : State) (pa : Nat) (bytes : List Byte), let n := bytes.length
    (pa + n ≤ 2 ^ 39 → n ≠ 0 → (∀ l, l ∈ linesOf pa n → s.mem.lineBad l = false ∧ s.mem.frameBusy (l / 1024) = false) →
      ∃ t, exec (.hostWrite pa bytes) s = .next t ∧ Changes [.mem] s t ∧ (∀ k b, bytes[k]? = some b → t.mem.byte (pa + k) = b)
        ∧ ∀ a, ¬(pa ≤ a ∧ a < pa + n) → t.mem.byte a = s.mem.byte a)
    ∧ (∀ q, q < 2 → pa = 2 ^ 40 + 64 * q → n = 64 → ∃ t, exec (.hostWrite pa bytes) s = .next t ∧ Changes [.host] s t
      ∧ t.queue q = { qrec := BitVec.ofNat 512 (ofBytes bytes), fn := q, en := true } ∧ ∀ j, j ≠ q → t.queue j = s.queue j)
    ∧ (∀ x, x < 2 ^ 20 → pa = 2 ^ 41 + 8 * x → n = 8 → ∃ t, exec (.hostWrite pa bytes) s = .next t ∧ Changes [.mem] s t
      ∧ t.mem = { s.mem with roots := t.mem.roots, moved := t.mem.moved }
      ∧ ∀ y, SMap.get 0 t.mem.roots y = if y = x then BitVec.ofNat 64 (ofBytes bytes) else SMap.get 0 s.mem.roots y)
    ∧ (pa = 2 ^ 42 → n = 2 → ∃ t, exec (.hostWrite pa bytes) s = .next t ∧ Changes [.mem] s t
      ∧ t.mem = { s.mem with devid := BitVec.ofNat 11 (ofBytes bytes) })
    ∧ (pa + n ≤ 2 ^ 39 → n ≠ 0 → (∃ l ∈ linesOf pa n, s.mem.frameBusy (l / 1024) = true) → ∃ t, exec (.hostWrite pa bytes) s = .next t
      ∧ Changes [.host] s t ∧ t.host = { s.host with writes := s.host.writes ++ [(pa, bytes)] })
    ∧ (pa + n ≤ 2 ^ 39 → n = 0 → Unchanged (.hostWrite pa bytes) s)
    ∧ (2 ^ 39 < pa + n → ¬((pa = 2 ^ 40 ∨ pa = 2 ^ 40 + 64) ∧ n = 64) → ¬(2 ^ 41 ≤ pa ∧ pa < 2 ^ 41 + 2 ^ 23 ∧ pa % 8 = 0 ∧ n = 8)
      → ¬(pa = 2 ^ 42 ∧ n = 2) → exec (.hostWrite pa bytes) s = .fault (.outsideMemory pa)))
  ∧ ∀ (s : State) (pfail spared : BitVec 9) (rails : List Nat), ∃ t, exec (.deviceReset pfail spared rails) s = .next t
    ∧ t.power.layout = s.power.layout ∧ t.strands = [] ∧ t.chuck = State.reset.chuck ∧ t.host = State.reset.host ∧ t.links = State.reset.links ∧ t.mem.devid = s.mem.devid
    ∧ (∀ a, t.mem.byte a = State.reset.mem.byte a)
    ∧ (let good := 9 - popCount 9 pfail.toNat
      bfld t.cube.layers 0 4 = (if good < 7 then 0 else min 8 good) ∧ bfld t.cube.layers 4 4 = popCount 9 pfail.toNat % 16
        ∧ bfld t.cube.layers 16 9 = spared.toNat ∧ bfld t.cube.map 32 9 = pfail.toNat)
    ∧ ∀ c, c < 32 → (t.clk c).rail = max 550 (min 950 (rails.getD c 800))

/-! ### The machine as a whole -/

/-- Decoding and encoding agree (R80 to R90, R93 to R101): every well-formed instruction of a strand is read back from the words that encode
it, which are of the form R80 and R82 give; and words that decode to an instruction are, but for the chain bits and the class bits of a tail, the
words that encode it. -/
def Obligations.DecodeEncode : Prop :=
  (∀ i : Instr, isEvent i = false → i.wf = true → match encode i with
    | .short h => decodeInstr h 0 = .ok i ∧ isLong (bfld h 28 3) (headOp h) = false ∧ h.getLsbD 31 = false
    | .long h t => decodeInstr h t = .ok i ∧ isLong (bfld h 28 3) (headOp h) = true ∧ h.getLsbD 31 = true ∧ t.getLsbD 31 = false
        ∧ bfld t 28 3 = bfld h 28 3
    | .none => False)
  ∧ ∀ (h t : W32) (i : Instr), decodeInstr h t = .ok i → i.wf = true ∧ isEvent i = false ∧ match encode i with
    | .short x => x = h &&& 0x7FFFFFFF
    | .long x y => x = h ||| 0x80000000 ∧ bfld y 0 28 = bfld t 0 28
    | .none => False

/-- Words written out from the encodings of R80 to R90 and the opcode tables of R93 to R100: one of each class, and a long form of each class that
has one. -/
def Obligations.DecodedWords : Prop :=
  -- 0 000 000001 000011 000100 000101 01 0 0
  decodeTableWord 32 0x00431054 = some (.add { d := 3, a := 4, b := 5, pb := 1, ru := false, u := false })
  -- 0 001 000 000010 000001 10 1 1111111111
  ∧ decodeTableWord 32 0x101037FF = some (.addi { d := 2, a := 1, pb := 2, ru := true, imm := 0x3FF })
  -- 1 001 111 001001 001000 01 0 0000000000, 0 001 000000 0000 10 1010101111001101
  ∧ decodeTableWord 64 0x1002ABCD9E490800 = some (.movhi { d := 9, a := 8, pb := 1, ru := false, sh := 2, imm := 0xABCD })
  -- 0 100 000011 000111 001000 111100 00 1 0
  ∧ decodeTableWord 32 0x40C723C2 = some (.ldN8 { d := 7, a := 8, b := 60, pb := 0, ru := true })
  -- 0 110 0001 10 000101 11 11111111111111
  ∧ decodeTableWord 32 0x6185FFFF = some (.brc { cc := 2, a := 5, pb := 3, off := 0x3FFF })
  -- 0 110 1111 0
  ∧ decodeTableWord 32 0x6F000000 = some .nop
  -- 0 111 0011 001001 00 0000 000000010000
  ∧ decodeTableWord 32 0x73240010 = some (.csrr { r := 9, pb := 0, csr := 0x010 })
  -- 1 000 110010 000001 000010 000011 00 0 0, 0 000 000100 0
  ∧ decodeTableWord 64 0x010000008C810830 = some (.sel { d := 1, a := 2, b := 3, c := 4, pb := 0, ru := false, mod := 0 })
  -- 1 010 000000 000001 000010 000011 00 0 0, 0 010 000000 10001 01 1 0 0 0 00000 0000 00
  ∧ decodeTableWord 64 0x2022C000A0010830 = some (.fadd
      { d := 1, a := 2, b := 3, c := 0, pb := 0, ru := false, typ := 17, lat := 1, rne := true, fzi := false, fzo := false, sat := false,
        typ2 := 0, cc := 0 })
  -- 1 011 000000 000001 000010 000011 00 0 0, 0 011 000000 00010 00 1 00000000 0000 00
  ∧ decodeTableWord 64 0x30044000B0010830 = some (.vadd
      { d := 1, a := 2, b := 3, c := 0, pb := 0, ru := false, typ := 2, lat := 0, sat := true, imm := 0, cc := 0 })
  -- 1 100 100100 000001 000010 000011 00 0 0, 0 100 000000 00111 100 1100 0000000000
  ∧ decodeTableWord 64 0x400F3000C9010830 = some (.aadd { d := 1, a := 2, b := 3, c := 0, pb := 0, ru := false, typ := 7, scope := 4, fn := 12 })
  -- 1 101 010000 000001 000010 111100 00 0 0, 0 101 000000 000101 00011 1 0000000000
  ∧ decodeTableWord 64 0x50051C00D4010BC0 = some (.fst { d := 1, a := 2, b := 60, c := 0, pb := 0, ru := false, mod := 0x51C00 })

/-- A step runs the decoded bundle (R81 to R83, R101, R103, R105, R124, R184, R193; log entries 2, 27). With no input listed and the bundles' turn, the
first strand in issue order fetches the 12 bytes at its segment base + 12 · pc; where the bundle decodes, its words run in order, each by `exec` in
the state that the word before it left (a word that reads memory at issue, once the accesses of those words have performed), from the state as
the issue begins; then the strand goes on at the transfer's target, the next word
or the next packet, and the core's cycle passes, by which strands of the core that were passed over age (R33). A word that stops takes back the
bundle but for the bits that its walks set, and the stop takes effect on the state that the fetch left; so does a trap of decode, where NO_ENTER comes
after decode and names the bundle's first word (log entry 43); what the record of a fault of the fetch names is log entry 44. What
walkers lost is reported with the step. A listed input is the step's own. -/
def Obligations.StepRunsBundle : Prop :=
  (∀ (s : State) (sid : Nat) (rest : List Nat) (p : BitVec 96) (s1 : State),
    let s0 : State := { s with turn := s.turn + 1, cur := sid, issue := { wi := 0xFF } }
    let m := s0.me
    let leaves (t : State) : Prop := ∃ l : List Nat, (∀ j ∈ l, j ∈ rest) ∧ step s = .next (t.age l).flushLost
    s.agenda = [] → s.turn % 2 = 0 → State.issueOrder { s with turn := s.turn + 1 } = sid :: rest → m.sch.forced = false →
    (s.part m.id.part).st ≠ 2 → Op.fetch s0 = .ok (p, s1) →
    (∀ e next, decodeBundle (s0.decCtx m) (pktWords p) m.wi = (.error e, next) →
      leaves (s1.afterStop (.trap (decInfo e)) (m.posAt next) 0xFF 0))
    ∧ ∀ is next, decodeBundle (s0.decCtx m) (pktWords p) m.wi = (.ok is, next) →
      let b := s1.me
      let pos := b.posAt next
      let word := (pktWords p).getD b.wi 0
      let s2 := ({ s1 with issue := { pos := pos, wi := b.wi, word := word } } : State).setMe { b with pkt := some p }
      (b.win.ep = true → (∀ e ∈ is, isEnter e.2 = false) →
        leaves (s1.afterStop (.trap { cls := 0x05, code := 1, wi := b.wi, word := word }) pos 0xFF 0))
      ∧ (b.win.ep = false ∨ (∃ e ∈ is, isEnter e.2 = true) → ∀ s3, Op.begin s2 = .ok ((), s3) →
        (∀ u, RanAll is s3 u → leaves (u.afterBundle is next))
        ∧ ∀ a q i c u v x, is = a ++ (q, i) :: c → RanAll a s3 u → RanWord q i u v → v.issue.abort = some x → x.isStall = false →
          leaves ((s1.setBits v.issue.walked).afterStop x pos q.wi q.head)))
  ∧ (∀ s0 : State, let m := s0.view
    (∀ p, m.pkt = some p → Op.fetch s0 = .ok (p, s0))
    ∧ ∀ segs r u, m.pkt = none → Op.transl ((if m.cseg = 0 then m.fr.code else m.fr.handler) + 12 * m.pc.setWidth 64) 12 .fetch 3 s0 = .ok ((segs, r), u) →
      let now := BitVec.ofNat 96 (u.mem.gather segs)
      (∀ l, u.mem.badVa segs = some l → Op.fetch s0 =
        .error ⟨.trap { cls := 0x09, code := 0, va := BitVec.ofNat 64 l, wi := u.issue.wi, word := u.issue.word }, u.issue.walked⟩)
      ∧ (u.mem.badVa segs = none → (m.oldPacket u.mem = none ∨ m.oldPacket u.mem = some (u.mem.gather segs) → Op.fetch s0 = .ok (now, u))
        ∧ ∃ p v, Op.fetch s0 = .ok (p, v) ∧ Changes [.free] u v ∧ (p = now ∨ ∃ old, m.oldPacket u.mem = some old ∧ p = BitVec.ofNat 96 old)))
  ∧ (∀ s : State, s.view.loop.pend = false → ∃ t, Op.begin s = .ok ((), t) ∧ t.issue = { s.issue with snap := some t.me } ∧ Changes [.strands, .issue] s t
    ∧ OthersKept s t ∧ t.me = { s.me with loop := { s.me.loop with pend := false } })
  ∧ (∀ (t : Strand) (i : Issue) (next : Nat),
    (∀ p, i.tgt = some p → t.flow i next = { t with pc := p, wi := i.twi, pkt := none })
    ∧ (i.tgt = none → next < 3 → t.flow i next = { t with wi := next })
    ∧ (i.tgt = none → 3 ≤ next → t.loop.act = false → t.flow i next = { t with pc := t.pc + 1, wi := 0, pkt := none }))
  ∧ ∀ (s : State) (i : Instr) (r : List Instr), s.agenda = i :: r →
    (isEvent i = true → step s = exec i { s with agenda := r }) ∧ (isEvent i = false → step s = .next { s with agenda := r })

/-- A step keeps memory in its canonical form, from every state, whether a bundle or an event runs; no step refuses, and the one fault is a host
write outside memory (R182, R192). -/
def Obligations.StepKeepsMemory : Prop :=
  (∀ s t : State, s.MemOk → step s = .next t → t.MemOk)
  ∧ ∀ s : State, IsNext (step s) ∨ ∃ pa, step s = .fault (.outsideMemory pa)

/-- What a reset leaves (R125, R279, R331, R338, R348, R351): partitions FREE, parcel slots FREE with generation 1, timelines 0, no patch set, frames
at their own places, no queue enabled, no strand and no node; memory lists nothing and has its canonical form. The trap record of a new strand
holds the values R125 gives. That memory not listed reads zero is the model's own choice (log entry 5). -/
def Obligations.ResetState : Prop :=
  Sys2Proof.core.reset = State.reset ∧ State.reset.MemOk ∧ State.reset.mem.cells = [] ∧ (∀ k, (State.reset.part k).st = 0)
    ∧ (∀ x, (State.reset.slot x).st = 0 ∧ (State.reset.slot x).gen = 1)
    ∧ (∀ c, (State.reset.ctx c).counter = 0 ∧ (State.reset.ctx c).issued = 0 ∧ (State.reset.ctx c).err = 0)
    ∧ State.reset.host.active = none ∧ State.reset.host.pending = none ∧ (∀ i, (State.reset.queue i).en = false)
    ∧ (∀ i f, (State.reset.stack i).placeOf f = f ∧ (State.reset.stack i).swap = none)
    ∧ (∀ i, State.reset.strand? i = none) ∧ (∀ n, (State.reset.node n).st = .free)
    ∧ ∀ i f e c a, let r := (newStrand i f e c a).trap.trec
      bfld r 280 8 = 0xFF ∧ bfld r 264 8 = 0xFF ∧ ∀ k, k < 512 → ¬(280 ≤ k ∧ k < 288) → ¬(264 ≤ k ∧ k < 272) → r.getLsbD k = false
end

