-- ==== Sys2Proof/Laws/Maps.lean ====
section
/-! SUPPORT. Sorted maps: what a read gives after each update, and that every update keeps the canonical form. -/

namespace Sys2Proof

variable {α : Type}

@[simp] theorem SMap.get_nil (d : α) (i : Nat) : SMap.get d [] i = d := rfl
@[simp] theorem SMap.find_nil (i : Nat) : SMap.find ([] : SMap α) i = none := rfl

theorem SMap.get_erase (d : α) (m : SMap α) (i j : Nat) : SMap.get d (SMap.erase m i) j = if i = j then d else SMap.get d m j := by
  induction m with
  | nil => simp [SMap.erase]
  | cons e t ih =>
    obtain ⟨k, v⟩ := e
    by_cases hk : k = i <;> by_cases hj : k = j <;> by_cases hij : i = j <;> simp_all [SMap.erase, SMap.get]

theorem SMap.get_insert (d : α) (m : SMap α) (i j : Nat) (v : α) (h : SMap.get d m i = d) (hn : SMap.find m i = none) :
    SMap.get d (SMap.insert m i v) j = if i = j then v else SMap.get d m j := by
  induction m with
  | nil => simp [SMap.insert, SMap.get]
  | cons e t ih =>
    obtain ⟨k, w⟩ := e
    by_cases hk : k = i
    · simp [SMap.find, hk] at hn
    · simp only [SMap.find, SMap.get, hk, if_false] at hn h
      by_cases hlt : i < k
      · simp only [SMap.insert, hlt, if_true, SMap.get]
      · by_cases hij : i = j
        · subst hij; simp [SMap.insert, hlt, SMap.get, hk, ih h hn]
        · simp only [SMap.insert, hlt, if_false, SMap.get, ih h hn, hij]

theorem SMap.find_erase (m : SMap α) (i j : Nat) : SMap.find (SMap.erase m i) j = if i = j then none else SMap.find m j := by
  induction m with
  | nil => simp [SMap.erase]
  | cons e t ih =>
    obtain ⟨k, v⟩ := e
    by_cases hk : k = i <;> by_cases hj : k = j <;> by_cases hij : i = j <;> simp_all [SMap.erase, SMap.find]

theorem SMap.find_insert (m : SMap α) (i j : Nat) (v : α) (hn : SMap.find m i = none) :
    SMap.find (SMap.insert m i v) j = if i = j then some v else SMap.find m j := by
  induction m with
  | nil => simp [SMap.insert, SMap.find]
  | cons e t ih =>
    obtain ⟨k, w⟩ := e
    by_cases hk : k = i
    · simp [SMap.find, hk] at hn
    · simp only [SMap.find, hk, if_false] at hn
      by_cases hlt : i < k
      · simp only [SMap.insert, hlt, if_true, SMap.find]
      · by_cases hij : i = j
        · subst hij; simp [SMap.insert, hlt, SMap.find, hk, ih hn]
        · simp only [SMap.insert, hlt, if_false, SMap.find, ih hn, hij]

/-- A read after a put. -/
theorem SMap.find_put (m : SMap α) (i j : Nat) (v : α) : SMap.find (SMap.put m i v) j = if i = j then some v else SMap.find m j := by
  have hn : SMap.find (SMap.erase m i) i = none := by simp [SMap.find_erase]
  rw [SMap.put, SMap.find_insert _ _ _ _ hn, SMap.find_erase]
  by_cases h : i = j <;> simp [h]

/-- A read after a set. -/
theorem SMap.get_set [DecidableEq α] (d : α) (m : SMap α) (i j : Nat) (v : α) :
    SMap.get d (SMap.set d m i v) j = if i = j then v else SMap.get d m j := by
  by_cases hv : v = d
  · simp [SMap.set, hv, SMap.get_erase]
  · have h : SMap.get d (SMap.erase m i) i = d := by simp [SMap.get_erase]
    have hn : SMap.find (SMap.erase m i) i = none := by simp [SMap.find_erase]
    simp only [SMap.set, hv, if_false]
    rw [SMap.get_insert _ _ _ _ _ h hn, SMap.get_erase]
    by_cases hij : i = j <;> simp [hij]

/-! ### The canonical form -/

/-- A lower bound may be lowered. -/
theorem SMap.wfFrom_mono [DecidableEq α] (d : α) (m : SMap α) (b c : Nat) (h : c ≤ b) (hm : SMap.wfFrom d (some b) m = true) :
    SMap.wfFrom d (some c) m = true := by
  cases m with
  | nil => rfl
  | cons e t =>
    simp only [SMap.wfFrom, Bool.and_eq_true, decide_eq_true_eq] at hm ⊢
    exact ⟨⟨by omega, hm.1.2⟩, hm.2⟩

theorem SMap.wfFrom_none [DecidableEq α] (d : α) (m : SMap α) (b : Nat) (hm : SMap.wfFrom d (some b) m = true) :
    SMap.wfFrom d none m = true := by
  cases m with
  | nil => rfl
  | cons e t => simp [SMap.wfFrom] at hm ⊢; exact ⟨hm.1.2, hm.2⟩

/-- The bound is met by every key an erase keeps. -/
theorem SMap.wfFrom_erase [DecidableEq α] (d : α) (m : SMap α) (i : Nat) (lo : Option Nat) (hm : SMap.wfFrom d lo m = true) :
    SMap.wfFrom d lo (SMap.erase m i) = true := by
  induction m generalizing lo with
  | nil => rfl
  | cons e t ih =>
    obtain ⟨k, v⟩ := e
    simp only [SMap.wfFrom, Bool.and_eq_true] at hm
    obtain ⟨⟨h1, h2⟩, h3⟩ := hm
    by_cases hk : k = i
    · simp only [SMap.erase, hk, if_true]
      apply ih
      cases lo with
      | none => exact SMap.wfFrom_none d t k h3
      | some b => exact SMap.wfFrom_mono d t k b (by simp at h1; omega) h3
    · simp only [SMap.erase, hk, if_false, SMap.wfFrom, Bool.and_eq_true]
      exact ⟨⟨h1, h2⟩, ih _ h3⟩

theorem SMap.wfFrom_insert [DecidableEq α] (d : α) (m : SMap α) (i : Nat) (v : α) (lo : Option Nat) (hv : v ≠ d)
    (hlo : ∀ b, lo = some b → b < i) (hn : SMap.find m i = none) (hm : SMap.wfFrom d lo m = true) :
    SMap.wfFrom d lo (SMap.insert m i v) = true := by
  induction m generalizing lo with
  | nil => cases lo <;> simp_all [SMap.insert, SMap.wfFrom]
  | cons e t ih =>
    obtain ⟨k, w⟩ := e
    simp only [SMap.wfFrom, Bool.and_eq_true] at hm
    obtain ⟨⟨h1, h2⟩, h3⟩ := hm
    have hk : k ≠ i := by intro hk; simp [SMap.find, hk] at hn
    simp only [SMap.find, hk, if_false] at hn
    by_cases hlt : i < k
    · cases lo <;> simp_all [SMap.insert, SMap.wfFrom]
    · simp only [SMap.insert, hlt, if_false, SMap.wfFrom, Bool.and_eq_true]
      exact ⟨⟨h1, h2⟩, ih _ (by intro b hb; cases hb; omega) hn h3⟩

/-- A set keeps the canonical form. -/
theorem SMap.wf_set [DecidableEq α] (d : α) (m : SMap α) (i : Nat) (v : α) (hm : SMap.wf d m = true) :
    SMap.wf d (SMap.set d m i v) = true := by
  by_cases hv : v = d
  · simp only [SMap.set, hv, if_true]; exact SMap.wfFrom_erase d m i none hm
  · simp only [SMap.set, hv, if_false]
    exact SMap.wfFrom_insert d _ i v none hv (by simp) (by simp [SMap.find_erase]) (SMap.wfFrom_erase d m i none hm)

end Sys2Proof
end

