-- ==== Sys2Proof/Laws/Memory.lean ====
section
/-! SUPPORT. Memory: what a byte reads as after each operation, and that every operation keeps the canonical form. -/

namespace Sys2Proof.Machine

/-! ### The canonical form -/

@[simp] theorem Mem.wf_mark (m : Mem) (ls : List Nat) : (m.mark ls).wf = m.wf := rfl
@[simp] theorem Mem.wf_heal (m : Mem) (ls : List Nat) : (m.heal ls).wf = m.wf := rfl

theorem Mem.wf_congr {m n : Mem} (h : n.cells = m.cells) : n.wf = m.wf := by simp [Mem.wf, h]

theorem Mem.wf_putBytes (bs : List Byte) : ∀ (m : Mem) (a : Nat), m.wf = true → (m.putBytes a bs).wf = true := by
  induction bs with
  | nil => intro m a h; exact h
  | cons b t ih => intro m a h; exact ih _ _ (SMap.wf_set _ _ _ _ h)

theorem Mem.wf_foldl {β : Type} (f : Mem → β → Mem) (hf : ∀ m b, m.wf = true → (f m b).wf = true) (l : List β) :
    ∀ m : Mem, m.wf = true → (l.foldl f m).wf = true := by
  induction l with
  | nil => intro m h; exact h
  | cons b t ih => intro m h; exact ih _ (hf m b h)

theorem Mem.wf_write (m : Mem) (a : Nat) (bs : List Byte) (h : m.wf = true) : (m.write a bs).1.wf = true := by
  unfold Mem.write
  dsimp only
  split
  · exact Mem.wf_putBytes _ _ _ h
  · refine Mem.wf_foldl _ ?_ _ _ h
    intro m l hm
    split
    · exact hm
    · exact Mem.wf_putBytes _ _ _ hm

theorem Mem.wf_writeN (m : Mem) (a n v : Nat) (h : m.wf = true) : (m.writeN a n v).1.wf = true := Mem.wf_write _ _ _ h

theorem Mem.wf_putLine (m : Mem) (a : Nat) (v : Line) (ok : Bool) (h : m.wf = true) : (m.putLine a v ok).wf = true := by
  unfold Mem.putLine
  split
  · exact Mem.wf_write _ _ _ h
  · exact Mem.wf_write m a (toBytes 64 v.toNat) h

theorem Mem.wf_scatterFrom (v : Nat) (segs : List Seg) : ∀ (acc : Mem × List Nat), acc.1.wf = true →
    (segs.foldl (fun acc g =>
      let r := acc.1.writeN g.pa g.len (v >>> (8 * g.off))
      (r.1, acc.2 ++ r.2)) acc).1.wf = true := by
  induction segs with
  | nil => intro acc h; exact h
  | cons g t ih => intro acc h; exact ih _ (Mem.wf_writeN _ _ _ _ h)

theorem Mem.wf_scatter (m : Mem) (segs : List Seg) (v : Nat) (h : m.wf = true) : (m.scatter segs v).1.wf = true :=
  Mem.wf_scatterFrom v segs (m, []) h

theorem Mem.wf_copyLines (m : Mem) (a b : Nat) (ls : List Nat) (h : m.wf = true) : (m.copyLines a b ls).wf = true :=
  Mem.wf_foldl _ (fun _ _ hm => Mem.wf_putLine _ _ _ _ hm) ls m h

/-- Leaving entries out keeps the form. -/
theorem SMap.wfFrom_filter {α : Type} [DecidableEq α] (d : α) (p : Nat × α → Bool) (m : SMap α) :
    ∀ lo, SMap.wfFrom d lo m = true → SMap.wfFrom d lo (m.filter p) = true := by
  induction m with
  | nil => intro lo h; exact h
  | cons e t ih =>
    obtain ⟨k, v⟩ := e
    intro lo h
    simp only [SMap.wfFrom, Bool.and_eq_true] at h
    obtain ⟨⟨h1, h2⟩, h3⟩ := h
    by_cases hp : p (k, v) = true
    · simp only [List.filter, hp, SMap.wfFrom, Bool.and_eq_true]; exact ⟨⟨h1, h2⟩, ih _ h3⟩
    · simp only [List.filter, hp]
      apply ih
      cases lo with
      | none => exact SMap.wfFrom_none d t k h3
      | some b => exact SMap.wfFrom_mono d t k b (by simp at h1; omega) h3

theorem Mem.wf_zeroFrame (m : Mem) (f : Nat) (h : m.wf = true) : (m.zeroFrame f).wf = true :=
  SMap.wfFrom_filter memDefault _ m.cells none h

theorem Mem.wf_ite {c : Prop} [Decidable c] {m n : Mem} (hm : m.wf = true) (hn : n.wf = true) : (if c then m else n).wf = true := by
  by_cases h : c
  · rwa [if_pos h]
  · rwa [if_neg h]

/-- A check that did not fail. -/
theorem ok_of_ite {ε α : Type} {c : Prop} [Decidable c] {x : ε} {y : Except ε α} {d : α}
    (h : (if c then .error x else y) = Except.ok d) : y = .ok d := by
  by_cases hc : c
  · rw [if_pos hc] at h; cases h
  · rwa [if_neg hc] at h

theorem Mem.wf_setPte (m : Mem) (p v : Nat) (h : m.wf = true) : (m.setPte p v).wf = true := Mem.wf_writeN m p 8 v h

@[simp] theorem Mem.wf_forget (m : Mem) (a n : Nat) : (m.forget a n).wf = m.wf := Mem.wf_congr rfl
@[simp] theorem Mem.wf_unlearn (m : Mem) (pasid va n : Nat) : (m.unlearn pasid va n).wf = m.wf := rfl

@[simp] theorem Mem.wf_learn (m : Mem) (c : Cached) : (m.learn c).wf = m.wf := by
  unfold Mem.learn
  split <;> rfl

theorem Mem.wf_walkFrom (va : Nat) (kind : WKind) (k : Nat) : ∀ (m : Mem) (lvl src e : Nat) (d : WDone), m.wf = true →
    m.walkFrom va kind k lvl src e = .ok d → d.mem.wf = true := by
  induction k with
  | zero => intro m lvl src e d h hd; simp [Mem.walkFrom] at hd
  | succ k ih =>
    intro m lvl src e d h hd
    have hd := ok_of_ite (ok_of_ite (ok_of_ite (ok_of_ite hd)))
    by_cases hl : (m.rd (m.nodeFrame src e * 65536 + 8 * walkIndex va lvl) 8).testBit 1 = true
    · rw [if_pos hl] at hd
      have hd := ok_of_ite (ok_of_ite (ok_of_ite (ok_of_ite hd)))
      by_cases hb : (m.rd (m.nodeFrame src e * 65536 + 8 * walkIndex va lvl) 8 ||| 16) ||| (if kind = .write then 32 else 0)
          = m.rd (m.nodeFrame src e * 65536 + 8 * walkIndex va lvl) 8
      · rw [if_pos hb] at hd; injection hd with hd; subst hd; exact h
      · rw [if_neg hb] at hd; injection hd with hd; subst hd; exact Mem.wf_setPte _ _ _ h
    · rw [if_neg hl] at hd
      exact ih _ _ _ _ _ h (ok_of_ite hd)

theorem Mem.wf_walk (m : Mem) (pasid va : Nat) (kind : WKind) (d : WDone) (h : m.wf = true) (hd : m.walk pasid va kind = .ok d) :
    d.mem.wf = true := by
  unfold Mem.walk at hd
  dsimp only at hd
  split at hd
  · cases hd
  · exact Mem.wf_walkFrom va kind 3 m 1 _ _ d h hd

theorem Mem.wf_walkLearn (m : Mem) (pasid va : Nat) (kind : WKind) (d : WDone) (h : m.wf = true)
    (hd : m.walkLearn pasid va kind = .ok d) : d.mem.wf = true := by
  unfold Mem.walkLearn at hd
  split at hd
  · next w hw => cases hd; rw [Mem.wf_learn]; exact Mem.wf_walk m pasid va kind w h hw
  · cases hd

/-- A translation, walked or cached, keeps the form. -/
theorem Mem.wf_find (m : Mem) (pasid va : Nat) (kind : WKind) (d : WDone) (h : m.wf = true) (hd : m.find pasid va kind = .ok d) :
    d.mem.wf = true := by
  unfold Mem.find at hd
  split at hd
  · exact Mem.wf_walkLearn m pasid va kind d h hd
  · split at hd
    · exact Mem.wf_walkLearn m pasid va kind d h hd
    · injection hd with hd; subst hd; exact h

@[simp] theorem Mem.wf_spoil (m : Mem) (segs : List Seg) : (m.spoil segs).wf = m.wf := rfl
@[simp] theorem Mem.wf_moveNode (m : Mem) (g : Mig) : (m.moveNode g).wf = m.wf := rfl

theorem State.wf_spoilStatus (s : State) (ws : List (Nat × Nat)) (h : s.mem.wf = true) : (s.spoilStatus ws).mem.wf = true := by
  unfold State.spoilStatus
  induction ws generalizing s with
  | nil => exact h
  | cons w t ih => exact ih _ (Mem.wf_writeN _ _ _ _ h)

/-- A program's write keeps the form. -/
theorem State.wf_storeSegs (s : State) (segs : List Seg) (v : Nat) (h : s.mem.wf = true) : (s.storeSegs segs v).1.mem.wf = true :=
  State.wf_spoilStatus _ _ (Mem.wf_scatter _ _ _ h)

/-- Where no status field of a block is touched, a program's write writes its bytes and no more. -/
theorem State.storeSegs_plain (s : State) (segs : List Seg) (v : Nat)
    (h : s.statusHits (segs.map fun g => (g.pa, g.len)) = []) :
    s.storeSegs segs v = ({ s with mem := (s.mem.scatter segs v).1 }, (s.mem.scatter segs v).2) := by
  simp only [State.storeSegs, State.spoilStatus, h, List.foldl_nil]

/-- No block is under way. -/
theorem State.statusHits_nil (s : State) (l : List (Nat × Nat)) (h : ∀ e ∈ s.rlcs, e.2.queue = []) : s.statusHits l = [] := by
  have hq : s.rlcs.flatMap (fun e => e.2.queue) = [] := by
    rw [List.flatMap_eq_nil_iff]; exact h
  simp [State.statusHits, State.statusPas, hq]

/-! ### Bytes -/

@[simp] theorem Mem.byte_mark (m : Mem) (ls : List Nat) (a : Nat) : (m.mark ls).byte a = m.byte a := rfl
@[simp] theorem Mem.byte_forget (m : Mem) (p n a : Nat) : (m.forget p n).byte a = m.byte a := rfl
@[simp] theorem Mem.byte_heal (m : Mem) (ls : List Nat) (a : Nat) : (m.heal ls).byte a = m.byte a := rfl
@[simp] theorem Mem.bad_putBytes (bs : List Byte) : ∀ (m : Mem) (a : Nat), (m.putBytes a bs).bad = m.bad := by
  induction bs with
  | nil => intro m a; rfl
  | cons b t ih => intro m a; exact ih _ _

/-- A read after a run of bytes is put. -/
theorem Mem.byte_putBytes (bs : List Byte) : ∀ (m : Mem) (a x : Nat),
    (m.putBytes a bs).byte x = if a ≤ x ∧ x < a + bs.length then bs.getD (x - a) 0 else m.byte x := by
  induction bs with
  | nil => intro m a x; rw [if_neg (by simp)]; rfl
  | cons b t ih =>
    intro m a x
    have hb : ({ m with cells := SMap.set memDefault m.cells a b } : Mem).byte x = if a = x then b else m.byte x :=
      SMap.get_set memDefault m.cells a x b
    rw [Mem.putBytes, ih, hb, List.length_cons]
    by_cases hx : a = x
    · subst hx
      rw [if_neg (by omega), if_pos rfl, if_pos (by omega)]
      simp
    · by_cases hr : a + 1 ≤ x ∧ x < a + 1 + t.length
      · rw [if_pos hr, if_pos (by omega)]
        have tail : (b :: t).getD (x - a) 0 = t.getD (x - (a + 1)) 0 := by
          rw [show x - a = x - (a + 1) + 1 by omega, List.getD_cons_succ]
        exact tail.symm
      · rw [if_neg hr, if_neg hx, if_neg (by omega)]

/-- The pieces of a write that meets failing lines stay inside the write. -/
theorem Mem.byte_foldPut (keep : Nat → Bool) (a n x : Nat) (bs : List Byte) (hn : bs.length = n) (hx : ¬(a ≤ x ∧ x < a + n))
    (ls : List Nat) : ∀ m : Mem,
    (ls.foldl (fun (acc : Mem) l =>
      if keep l then acc
      else
        let lo := max a (64 * l)
        let hi := min (a + bs.length) (64 * l + 64)
        acc.putBytes lo ((bs.drop (lo - a)).take (hi - lo))) m).byte x = m.byte x := by
  induction ls with
  | nil => intro m; rfl
  | cons l t ih =>
    intro m
    rw [List.foldl_cons, ih]
    by_cases hk : keep l = true
    · rw [if_pos hk]
    · rw [if_neg hk]
      dsimp only
      rw [Mem.byte_putBytes, if_neg]
      rw [List.length_take, List.length_drop]
      omega

/-- A write leaves every byte outside it. -/
theorem Mem.byte_write_other (m : Mem) (a : Nat) (bs : List Byte) (x : Nat) (hx : ¬(a ≤ x ∧ x < a + bs.length)) :
    (m.write a bs).1.byte x = m.byte x := by
  unfold Mem.write
  dsimp only
  split
  · rw [Mem.byte_forget, Mem.byte_mark, Mem.byte_heal, Mem.byte_putBytes, if_neg hx]
  · rw [Mem.byte_forget, Mem.byte_mark, Mem.byte_heal]
    exact Mem.byte_foldPut _ a bs.length x bs rfl hx _ m

/-- A write that no line discards puts every byte. -/
theorem Mem.byte_write (m : Mem) (a : Nat) (bs : List Byte) (x : Nat) (hb : (m.write a bs).2 = [])
    (hx : a ≤ x ∧ x < a + bs.length) : (m.write a bs).1.byte x = bs.getD (x - a) 0 := by
  unfold Mem.write at hb ⊢
  dsimp only at hb ⊢
  split at hb
  · rename_i h
    rw [if_pos h, Mem.byte_forget, Mem.byte_mark, Mem.byte_heal, Mem.byte_putBytes, if_pos hx]
  · rename_i h
    exact absurd hb h

theorem length_toBytes (n : Nat) : ∀ v : Nat, (toBytes n v).length = n := by
  induction n with
  | zero => intro v; rfl
  | succ n ih => intro v; simp [toBytes, ih]

theorem Mem.byte_writeN_other (m : Mem) (a n v x : Nat) (hx : ¬(a ≤ x ∧ x < a + n)) : (m.writeN a n v).1.byte x = m.byte x :=
  Mem.byte_write_other m a _ x (by rwa [length_toBytes])

/-- Writes at segments leave every byte outside them. -/
theorem Mem.byte_scatterFrom_other (v x : Nat) (segs : List Seg) (hx : ∀ g ∈ segs, ¬(g.pa ≤ x ∧ x < g.pa + g.len)) :
    ∀ acc : Mem × List Nat, (segs.foldl (fun acc g =>
      let r := acc.1.writeN g.pa g.len (v >>> (8 * g.off))
      (r.1, acc.2 ++ r.2)) acc).1.byte x = acc.1.byte x := by
  induction segs with
  | nil => intro acc; rfl
  | cons g t ih =>
    intro acc
    rw [List.foldl_cons, ih fun h hh => hx h (List.mem_cons_of_mem _ hh)]
    exact Mem.byte_writeN_other _ _ _ _ _ (hx g List.mem_cons_self)

theorem Mem.byte_scatter_other (m : Mem) (segs : List Seg) (v x : Nat) (hx : ∀ g ∈ segs, ¬(g.pa ≤ x ∧ x < g.pa + g.len)) :
    (m.scatter segs v).1.byte x = m.byte x := Mem.byte_scatterFrom_other v x segs hx (m, [])

end Sys2Proof.Machine
end

