-- ==== Sys2Proof/Laws/Counts.lean ====
section
/-! SUPPORT. Counts of accesses (R334): no walk and no write of memory reads them, and what a translation does that leaves memory else as it is. -/

namespace Sys2Proof.Machine

@[simp] theorem Mem.byte_hit (m : Mem) (pa n a : Nat) : (m.hit pa n).byte a = m.byte a := rfl
@[simp] theorem Mem.rd_hit (m : Mem) (pa n a k : Nat) : (m.hit pa n).rd a k = m.rd a k := rfl
@[simp] theorem Mem.lineBad_hit (m : Mem) (pa n l : Nat) : (m.hit pa n).lineBad l = m.lineBad l := rfl
@[simp] theorem Mem.paBusy_hit (m : Mem) (pa n a k : Nat) : (m.hit pa n).paBusy a k = m.paBusy a k := rfl
@[simp] theorem Mem.frozen_hit (m : Mem) (pa n pasid va : Nat) : (m.hit pa n).frozen pasid va = m.frozen pasid va := rfl
@[simp] theorem Mem.wf_hit (m : Mem) (pa n : Nat) : (m.hit pa n).wf = m.wf := rfl

/-- An access counts its lines for its frame and for no other (R334). -/
theorem Mem.counted_hit (m : Mem) (pa n : Nat) (h : n ≠ 0) : Counted m (m.hit pa n) pa n := by
  refine ⟨rfl, fun f => ?_⟩
  have lines : (linesOf pa n).length = (pa + n - 1) / 64 - pa / 64 + 1 := by
    rw [linesOf, if_neg h]
    simp [rangeFrom, lineOf]
  show SMap.get 0 (SMap.set 0 m.hits (pa / 65536) _) f = _
  rw [SMap.get_set, lines]
  by_cases e : pa / 65536 = f
  · subst e; simp
  · rw [if_neg e, if_neg (Ne.symm e)]; rfl

/-- The memory with other counts of accesses. -/
abbrev Mem.counted (m : Mem) (h : SMap Nat) : Mem := { m with hits := h }

theorem Mem.putBytes_counted (bs : List Byte) (h : SMap Nat) : ∀ (m : Mem) (a : Nat), (m.counted h).putBytes a bs = (m.putBytes a bs).counted h := by
  induction bs with
  | nil => intro m a; rfl
  | cons b t ih => intro m a; exact ih { m with cells := SMap.set memDefault m.cells a b } (a + 1)

theorem Mem.foldl_counted {β : Type} (f : Mem → β → Mem) (h : SMap Nat) (hf : ∀ m b, f (m.counted h) b = (f m b).counted h) (l : List β) :
    ∀ m : Mem, l.foldl f (m.counted h) = (l.foldl f m).counted h := by
  induction l with
  | nil => intro m; rfl
  | cons b t ih => intro m; rw [List.foldl_cons, List.foldl_cons, hf, ih]

theorem Mem.write_counted (m : Mem) (a : Nat) (bs : List Byte) (h : SMap Nat) :
    (m.counted h).write a bs = ((m.write a bs).1.counted h, (m.write a bs).2) := by
  by_cases g : ((linesOf a bs.length).filter fun l => m.lineBad l && !coversLine a bs.length l) = []
  · have e (n : Mem) (hn : ((linesOf a bs.length).filter fun l => n.lineBad l && !coversLine a bs.length l) = []) : n.write a bs =
        ((((n.putBytes a bs).heal ((linesOf a bs.length).filter (coversLine a bs.length))).mark (linesOf a bs.length)).forget a bs.length, []) := if_pos hn
    rw [e m g, e (m.counted h) g, Mem.putBytes_counted]; rfl
  · unfold Mem.write
    dsimp only
    rw [if_neg g, if_neg (show ¬((linesOf a bs.length).filter fun l => (m.counted h).lineBad l && !coversLine a bs.length l) = [] from g)]
    rw [Mem.foldl_counted _ h (fun n l => ?_) (linesOf a bs.length) m]
    · rfl
    · show (if (m.lineBad l && !coversLine a bs.length l) = true then _ else _) = Mem.counted (if (m.lineBad l && !coversLine a bs.length l) = true then _ else _) h
      split
      · rfl
      · exact Mem.putBytes_counted _ _ _ _

/-- A walk is one of the bytes alone. -/
theorem Mem.walkFrom_counted (va : Nat) (kind : WKind) (h : SMap Nat) (k : Nat) : ∀ (m : Mem) (lvl src e : Nat),
    (m.counted h).walkFrom va kind k lvl src e = (m.walkFrom va kind k lvl src e).map fun d => { d with mem := d.mem.counted h } := by
  induction k with
  | zero => intro m lvl src e; rfl
  | succ k ih =>
    intro m lvl src e
    have set_ (p v : Nat) : (m.counted h).setPte p v = (m.setPte p v).counted h := by
      simp only [Mem.setPte, Mem.writeN, Mem.write_counted]
    have rec_ := ih m
    simp only [Mem.walkFrom]
    simp only [apply_ite (Except.map _)]
    rw [set_, rec_]
    rfl

theorem Mem.walk_counted (m : Mem) (pasid va : Nat) (kind : WKind) (h : SMap Nat) :
    (m.counted h).walk pasid va kind = (m.walk pasid va kind).map fun d => { d with mem := d.mem.counted h } := by
  simp only [Mem.walk, Mem.walkFrom_counted, apply_ite (Except.map _)]
  rfl

theorem Mem.learn_counted (m : Mem) (c : Cached) (h : SMap Nat) : (m.counted h).learn c = (m.learn c).counted h := by
  unfold Mem.learn
  split <;> rfl

theorem Mem.walkLearn_counted (m : Mem) (pasid va : Nat) (kind : WKind) (h : SMap Nat) :
    (m.counted h).walkLearn pasid va kind = (m.walkLearn pasid va kind).map fun d => { d with mem := d.mem.counted h } := by
  simp only [Mem.walkLearn, Mem.walk_counted]
  cases m.walk pasid va kind with
  | ok d => simp only [Except.map, Mem.learn_counted]; rfl
  | error f => rfl

/-- A translation answers what it would with other counts. -/
theorem Mem.find_counted (m : Mem) (pasid va : Nat) (kind : WKind) (h : SMap Nat) :
    (m.counted h).find pasid va kind = (m.find pasid va kind).map fun d => { d with mem := d.mem.counted h } := by
  have agrees (c : Cached) : c.agrees va ((m.walk pasid va kind).map fun d => { d with mem := d.mem.counted h }) = c.agrees va (m.walk pasid va kind) := by
    cases m.walk pasid va kind <;> rfl
  unfold Mem.find
  cases m.tlb.find? fun c => c.covers pasid va kind with
  | none => exact Mem.walkLearn_counted _ _ _ _ _
  | some c =>
    simp only [Mem.walk_counted, agrees, Mem.walkLearn_counted, apply_ite (Except.map _)]
    rfl

/-- What reaches an address reaches it with other counts. -/
theorem Reaches.counted {s : State} {pasid va n pa : Nat} {kind : WKind} (r : Reaches s pasid va n kind pa) (h : SMap Nat) :
    Reaches { s with mem := s.mem.counted h } pasid va n kind pa := by
  obtain ⟨a, b, c, d, e, w, f, g, i⟩ := r
  refine ⟨a, b, c, d, e, { w with mem := w.mem.counted h }, ?_, g, ?_⟩
  · show (s.mem.counted h).find pasid va kind = _
    rw [Mem.find_counted, f]; rfl
  · show w.mem.counted h = s.mem.counted h
    rw [i]

/-- A translation of bytes that reach an address counts them and changes nothing else (R334). -/
theorem State.translate_reaches {s : State} {pasid va n pa : Nat} {kind : WKind} (r : Reaches s pasid va n kind pa) :
    s.translate pasid va n kind = .ok ([⟨0, pa, n, va⟩], { s with mem := s.mem.hit pa n }) := by
  obtain ⟨a, b, c, d, e, w, f, g, i⟩ := r
  subst g
  simp only [State.translate, a, b, translatePieces, c, d, f, e, i, Bool.not_true, Bool.false_eq_true, if_false]

end Sys2Proof.Machine
end

