-- ==== Sys2Proof/Laws/State.lean ====
section
/-! SUPPORT. Each field of State after each update that sets one piece of it: the field the update does not touch stays. -/

namespace Sys2Proof.Machine

@[simp] theorem State.setStrand_agenda (s : State) (i : Nat) (t : Strand) : (s.setStrand i t).agenda = s.agenda := rfl
@[simp] theorem State.setStrand_cur (s : State) (i : Nat) (t : Strand) : (s.setStrand i t).cur = s.cur := rfl
@[simp] theorem State.setStrand_turn (s : State) (i : Nat) (t : Strand) : (s.setStrand i t).turn = s.turn := rfl
@[simp] theorem State.setStrand_issue (s : State) (i : Nat) (t : Strand) : (s.setStrand i t).issue = s.issue := rfl
@[simp] theorem State.setStrand_free (s : State) (i : Nat) (t : Strand) : (s.setStrand i t).free = s.free := rfl
@[simp] theorem State.setStrand_nextSid (s : State) (i : Nat) (t : Strand) : (s.setStrand i t).nextSid = s.nextSid := rfl
@[simp] theorem State.setStrand_cores (s : State) (i : Nat) (t : Strand) : (s.setStrand i t).cores = s.cores := rfl
@[simp] theorem State.setStrand_chuck (s : State) (i : Nat) (t : Strand) : (s.setStrand i t).chuck = s.chuck := rfl
@[simp] theorem State.setStrand_parts (s : State) (i : Nat) (t : Strand) : (s.setStrand i t).parts = s.parts := rfl
@[simp] theorem State.setStrand_mem (s : State) (i : Nat) (t : Strand) : (s.setStrand i t).mem = s.mem := rfl
@[simp] theorem State.setStrand_ctxs (s : State) (i : Nat) (t : Strand) : (s.setStrand i t).ctxs = s.ctxs := rfl
@[simp] theorem State.setStrand_nests (s : State) (i : Nat) (t : Strand) : (s.setStrand i t).nests = s.nests := rfl
@[simp] theorem State.setStrand_copies (s : State) (i : Nat) (t : Strand) : (s.setStrand i t).copies = s.copies := rfl
@[simp] theorem State.setStrand_fab (s : State) (i : Nat) (t : Strand) : (s.setStrand i t).fab = s.fab := rfl
@[simp] theorem State.setStrand_links (s : State) (i : Nat) (t : Strand) : (s.setStrand i t).links = s.links := rfl
@[simp] theorem State.setStrand_slots (s : State) (i : Nat) (t : Strand) : (s.setStrand i t).slots = s.slots := rfl
@[simp] theorem State.setStrand_words (s : State) (i : Nat) (t : Strand) : (s.setStrand i t).words = s.words := rfl
@[simp] theorem State.setStrand_cube (s : State) (i : Nat) (t : Strand) : (s.setStrand i t).cube = s.cube := rfl
@[simp] theorem State.setStrand_rlcs (s : State) (i : Nat) (t : Strand) : (s.setStrand i t).rlcs = s.rlcs := rfl
@[simp] theorem State.setStrand_power (s : State) (i : Nat) (t : Strand) : (s.setStrand i t).power = s.power := rfl
@[simp] theorem State.setStrand_host (s : State) (i : Nat) (t : Strand) : (s.setStrand i t).host = s.host := rfl

@[simp] theorem State.setMe_agenda (s : State) (t : Strand) : (s.setMe t).agenda = s.agenda := rfl
@[simp] theorem State.setMe_cur (s : State) (t : Strand) : (s.setMe t).cur = s.cur := rfl
@[simp] theorem State.setMe_turn (s : State) (t : Strand) : (s.setMe t).turn = s.turn := rfl
@[simp] theorem State.setMe_issue (s : State) (t : Strand) : (s.setMe t).issue = s.issue := rfl
@[simp] theorem State.setMe_free (s : State) (t : Strand) : (s.setMe t).free = s.free := rfl
@[simp] theorem State.setMe_nextSid (s : State) (t : Strand) : (s.setMe t).nextSid = s.nextSid := rfl
@[simp] theorem State.setMe_cores (s : State) (t : Strand) : (s.setMe t).cores = s.cores := rfl
@[simp] theorem State.setMe_chuck (s : State) (t : Strand) : (s.setMe t).chuck = s.chuck := rfl
@[simp] theorem State.setMe_parts (s : State) (t : Strand) : (s.setMe t).parts = s.parts := rfl
@[simp] theorem State.setMe_mem (s : State) (t : Strand) : (s.setMe t).mem = s.mem := rfl
@[simp] theorem State.setMe_ctxs (s : State) (t : Strand) : (s.setMe t).ctxs = s.ctxs := rfl
@[simp] theorem State.setMe_nests (s : State) (t : Strand) : (s.setMe t).nests = s.nests := rfl
@[simp] theorem State.setMe_copies (s : State) (t : Strand) : (s.setMe t).copies = s.copies := rfl
@[simp] theorem State.setMe_fab (s : State) (t : Strand) : (s.setMe t).fab = s.fab := rfl
@[simp] theorem State.setMe_links (s : State) (t : Strand) : (s.setMe t).links = s.links := rfl
@[simp] theorem State.setMe_slots (s : State) (t : Strand) : (s.setMe t).slots = s.slots := rfl
@[simp] theorem State.setMe_words (s : State) (t : Strand) : (s.setMe t).words = s.words := rfl
@[simp] theorem State.setMe_cube (s : State) (t : Strand) : (s.setMe t).cube = s.cube := rfl
@[simp] theorem State.setMe_rlcs (s : State) (t : Strand) : (s.setMe t).rlcs = s.rlcs := rfl
@[simp] theorem State.setMe_power (s : State) (t : Strand) : (s.setMe t).power = s.power := rfl
@[simp] theorem State.setMe_host (s : State) (t : Strand) : (s.setMe t).host = s.host := rfl

@[simp] theorem State.setNode_agenda (s : State) (n : Nat) (v : Node) : (s.setNode n v).agenda = s.agenda := rfl
@[simp] theorem State.setNode_cur (s : State) (n : Nat) (v : Node) : (s.setNode n v).cur = s.cur := rfl
@[simp] theorem State.setNode_turn (s : State) (n : Nat) (v : Node) : (s.setNode n v).turn = s.turn := rfl
@[simp] theorem State.setNode_issue (s : State) (n : Nat) (v : Node) : (s.setNode n v).issue = s.issue := rfl
@[simp] theorem State.setNode_free (s : State) (n : Nat) (v : Node) : (s.setNode n v).free = s.free := rfl
@[simp] theorem State.setNode_strands (s : State) (n : Nat) (v : Node) : (s.setNode n v).strands = s.strands := rfl
@[simp] theorem State.setNode_nextSid (s : State) (n : Nat) (v : Node) : (s.setNode n v).nextSid = s.nextSid := rfl
@[simp] theorem State.setNode_cores (s : State) (n : Nat) (v : Node) : (s.setNode n v).cores = s.cores := rfl
@[simp] theorem State.setNode_parts (s : State) (n : Nat) (v : Node) : (s.setNode n v).parts = s.parts := rfl
@[simp] theorem State.setNode_mem (s : State) (n : Nat) (v : Node) : (s.setNode n v).mem = s.mem := rfl
@[simp] theorem State.setNode_ctxs (s : State) (n : Nat) (v : Node) : (s.setNode n v).ctxs = s.ctxs := rfl
@[simp] theorem State.setNode_nests (s : State) (n : Nat) (v : Node) : (s.setNode n v).nests = s.nests := rfl
@[simp] theorem State.setNode_copies (s : State) (n : Nat) (v : Node) : (s.setNode n v).copies = s.copies := rfl
@[simp] theorem State.setNode_fab (s : State) (n : Nat) (v : Node) : (s.setNode n v).fab = s.fab := rfl
@[simp] theorem State.setNode_links (s : State) (n : Nat) (v : Node) : (s.setNode n v).links = s.links := rfl
@[simp] theorem State.setNode_slots (s : State) (n : Nat) (v : Node) : (s.setNode n v).slots = s.slots := rfl
@[simp] theorem State.setNode_words (s : State) (n : Nat) (v : Node) : (s.setNode n v).words = s.words := rfl
@[simp] theorem State.setNode_cube (s : State) (n : Nat) (v : Node) : (s.setNode n v).cube = s.cube := rfl
@[simp] theorem State.setNode_rlcs (s : State) (n : Nat) (v : Node) : (s.setNode n v).rlcs = s.rlcs := rfl
@[simp] theorem State.setNode_power (s : State) (n : Nat) (v : Node) : (s.setNode n v).power = s.power := rfl
@[simp] theorem State.setNode_host (s : State) (n : Nat) (v : Node) : (s.setNode n v).host = s.host := rfl

@[simp] theorem State.setPart_agenda (s : State) (p : Nat) (v : Part) : (s.setPart p v).agenda = s.agenda := rfl
@[simp] theorem State.setPart_cur (s : State) (p : Nat) (v : Part) : (s.setPart p v).cur = s.cur := rfl
@[simp] theorem State.setPart_turn (s : State) (p : Nat) (v : Part) : (s.setPart p v).turn = s.turn := rfl
@[simp] theorem State.setPart_issue (s : State) (p : Nat) (v : Part) : (s.setPart p v).issue = s.issue := rfl
@[simp] theorem State.setPart_free (s : State) (p : Nat) (v : Part) : (s.setPart p v).free = s.free := rfl
@[simp] theorem State.setPart_strands (s : State) (p : Nat) (v : Part) : (s.setPart p v).strands = s.strands := rfl
@[simp] theorem State.setPart_nextSid (s : State) (p : Nat) (v : Part) : (s.setPart p v).nextSid = s.nextSid := rfl
@[simp] theorem State.setPart_cores (s : State) (p : Nat) (v : Part) : (s.setPart p v).cores = s.cores := rfl
@[simp] theorem State.setPart_chuck (s : State) (p : Nat) (v : Part) : (s.setPart p v).chuck = s.chuck := rfl
@[simp] theorem State.setPart_mem (s : State) (p : Nat) (v : Part) : (s.setPart p v).mem = s.mem := rfl
@[simp] theorem State.setPart_ctxs (s : State) (p : Nat) (v : Part) : (s.setPart p v).ctxs = s.ctxs := rfl
@[simp] theorem State.setPart_nests (s : State) (p : Nat) (v : Part) : (s.setPart p v).nests = s.nests := rfl
@[simp] theorem State.setPart_copies (s : State) (p : Nat) (v : Part) : (s.setPart p v).copies = s.copies := rfl
@[simp] theorem State.setPart_fab (s : State) (p : Nat) (v : Part) : (s.setPart p v).fab = s.fab := rfl
@[simp] theorem State.setPart_links (s : State) (p : Nat) (v : Part) : (s.setPart p v).links = s.links := rfl
@[simp] theorem State.setPart_slots (s : State) (p : Nat) (v : Part) : (s.setPart p v).slots = s.slots := rfl
@[simp] theorem State.setPart_words (s : State) (p : Nat) (v : Part) : (s.setPart p v).words = s.words := rfl
@[simp] theorem State.setPart_cube (s : State) (p : Nat) (v : Part) : (s.setPart p v).cube = s.cube := rfl
@[simp] theorem State.setPart_rlcs (s : State) (p : Nat) (v : Part) : (s.setPart p v).rlcs = s.rlcs := rfl
@[simp] theorem State.setPart_power (s : State) (p : Nat) (v : Part) : (s.setPart p v).power = s.power := rfl
@[simp] theorem State.setPart_host (s : State) (p : Nat) (v : Part) : (s.setPart p v).host = s.host := rfl

@[simp] theorem State.setCtx_agenda (s : State) (c : Nat) (v : Ctx) : (s.setCtx c v).agenda = s.agenda := rfl
@[simp] theorem State.setCtx_cur (s : State) (c : Nat) (v : Ctx) : (s.setCtx c v).cur = s.cur := rfl
@[simp] theorem State.setCtx_turn (s : State) (c : Nat) (v : Ctx) : (s.setCtx c v).turn = s.turn := rfl
@[simp] theorem State.setCtx_issue (s : State) (c : Nat) (v : Ctx) : (s.setCtx c v).issue = s.issue := rfl
@[simp] theorem State.setCtx_free (s : State) (c : Nat) (v : Ctx) : (s.setCtx c v).free = s.free := rfl
@[simp] theorem State.setCtx_strands (s : State) (c : Nat) (v : Ctx) : (s.setCtx c v).strands = s.strands := rfl
@[simp] theorem State.setCtx_nextSid (s : State) (c : Nat) (v : Ctx) : (s.setCtx c v).nextSid = s.nextSid := rfl
@[simp] theorem State.setCtx_cores (s : State) (c : Nat) (v : Ctx) : (s.setCtx c v).cores = s.cores := rfl
@[simp] theorem State.setCtx_chuck (s : State) (c : Nat) (v : Ctx) : (s.setCtx c v).chuck = s.chuck := rfl
@[simp] theorem State.setCtx_parts (s : State) (c : Nat) (v : Ctx) : (s.setCtx c v).parts = s.parts := rfl
@[simp] theorem State.setCtx_mem (s : State) (c : Nat) (v : Ctx) : (s.setCtx c v).mem = s.mem := rfl
@[simp] theorem State.setCtx_nests (s : State) (c : Nat) (v : Ctx) : (s.setCtx c v).nests = s.nests := rfl
@[simp] theorem State.setCtx_copies (s : State) (c : Nat) (v : Ctx) : (s.setCtx c v).copies = s.copies := rfl
@[simp] theorem State.setCtx_fab (s : State) (c : Nat) (v : Ctx) : (s.setCtx c v).fab = s.fab := rfl
@[simp] theorem State.setCtx_links (s : State) (c : Nat) (v : Ctx) : (s.setCtx c v).links = s.links := rfl
@[simp] theorem State.setCtx_slots (s : State) (c : Nat) (v : Ctx) : (s.setCtx c v).slots = s.slots := rfl
@[simp] theorem State.setCtx_words (s : State) (c : Nat) (v : Ctx) : (s.setCtx c v).words = s.words := rfl
@[simp] theorem State.setCtx_cube (s : State) (c : Nat) (v : Ctx) : (s.setCtx c v).cube = s.cube := rfl
@[simp] theorem State.setCtx_rlcs (s : State) (c : Nat) (v : Ctx) : (s.setCtx c v).rlcs = s.rlcs := rfl
@[simp] theorem State.setCtx_power (s : State) (c : Nat) (v : Ctx) : (s.setCtx c v).power = s.power := rfl
@[simp] theorem State.setCtx_host (s : State) (c : Nat) (v : Ctx) : (s.setCtx c v).host = s.host := rfl

@[simp] theorem State.setRlc_agenda (s : State) (x : Nat) (v : Rlc) : (s.setRlc x v).agenda = s.agenda := rfl
@[simp] theorem State.setRlc_cur (s : State) (x : Nat) (v : Rlc) : (s.setRlc x v).cur = s.cur := rfl
@[simp] theorem State.setRlc_turn (s : State) (x : Nat) (v : Rlc) : (s.setRlc x v).turn = s.turn := rfl
@[simp] theorem State.setRlc_issue (s : State) (x : Nat) (v : Rlc) : (s.setRlc x v).issue = s.issue := rfl
@[simp] theorem State.setRlc_free (s : State) (x : Nat) (v : Rlc) : (s.setRlc x v).free = s.free := rfl
@[simp] theorem State.setRlc_strands (s : State) (x : Nat) (v : Rlc) : (s.setRlc x v).strands = s.strands := rfl
@[simp] theorem State.setRlc_nextSid (s : State) (x : Nat) (v : Rlc) : (s.setRlc x v).nextSid = s.nextSid := rfl
@[simp] theorem State.setRlc_cores (s : State) (x : Nat) (v : Rlc) : (s.setRlc x v).cores = s.cores := rfl
@[simp] theorem State.setRlc_chuck (s : State) (x : Nat) (v : Rlc) : (s.setRlc x v).chuck = s.chuck := rfl
@[simp] theorem State.setRlc_parts (s : State) (x : Nat) (v : Rlc) : (s.setRlc x v).parts = s.parts := rfl
@[simp] theorem State.setRlc_mem (s : State) (x : Nat) (v : Rlc) : (s.setRlc x v).mem = s.mem := rfl
@[simp] theorem State.setRlc_ctxs (s : State) (x : Nat) (v : Rlc) : (s.setRlc x v).ctxs = s.ctxs := rfl
@[simp] theorem State.setRlc_nests (s : State) (x : Nat) (v : Rlc) : (s.setRlc x v).nests = s.nests := rfl
@[simp] theorem State.setRlc_copies (s : State) (x : Nat) (v : Rlc) : (s.setRlc x v).copies = s.copies := rfl
@[simp] theorem State.setRlc_fab (s : State) (x : Nat) (v : Rlc) : (s.setRlc x v).fab = s.fab := rfl
@[simp] theorem State.setRlc_links (s : State) (x : Nat) (v : Rlc) : (s.setRlc x v).links = s.links := rfl
@[simp] theorem State.setRlc_slots (s : State) (x : Nat) (v : Rlc) : (s.setRlc x v).slots = s.slots := rfl
@[simp] theorem State.setRlc_words (s : State) (x : Nat) (v : Rlc) : (s.setRlc x v).words = s.words := rfl
@[simp] theorem State.setRlc_cube (s : State) (x : Nat) (v : Rlc) : (s.setRlc x v).cube = s.cube := rfl
@[simp] theorem State.setRlc_power (s : State) (x : Nat) (v : Rlc) : (s.setRlc x v).power = s.power := rfl
@[simp] theorem State.setRlc_host (s : State) (x : Nat) (v : Rlc) : (s.setRlc x v).host = s.host := rfl

@[simp] theorem State.setSlot_agenda (s : State) (x : Nat) (v : Slot) : (s.setSlot x v).agenda = s.agenda := rfl
@[simp] theorem State.setSlot_cur (s : State) (x : Nat) (v : Slot) : (s.setSlot x v).cur = s.cur := rfl
@[simp] theorem State.setSlot_turn (s : State) (x : Nat) (v : Slot) : (s.setSlot x v).turn = s.turn := rfl
@[simp] theorem State.setSlot_issue (s : State) (x : Nat) (v : Slot) : (s.setSlot x v).issue = s.issue := rfl
@[simp] theorem State.setSlot_free (s : State) (x : Nat) (v : Slot) : (s.setSlot x v).free = s.free := rfl
@[simp] theorem State.setSlot_strands (s : State) (x : Nat) (v : Slot) : (s.setSlot x v).strands = s.strands := rfl
@[simp] theorem State.setSlot_nextSid (s : State) (x : Nat) (v : Slot) : (s.setSlot x v).nextSid = s.nextSid := rfl
@[simp] theorem State.setSlot_cores (s : State) (x : Nat) (v : Slot) : (s.setSlot x v).cores = s.cores := rfl
@[simp] theorem State.setSlot_chuck (s : State) (x : Nat) (v : Slot) : (s.setSlot x v).chuck = s.chuck := rfl
@[simp] theorem State.setSlot_parts (s : State) (x : Nat) (v : Slot) : (s.setSlot x v).parts = s.parts := rfl
@[simp] theorem State.setSlot_mem (s : State) (x : Nat) (v : Slot) : (s.setSlot x v).mem = s.mem := rfl
@[simp] theorem State.setSlot_ctxs (s : State) (x : Nat) (v : Slot) : (s.setSlot x v).ctxs = s.ctxs := rfl
@[simp] theorem State.setSlot_nests (s : State) (x : Nat) (v : Slot) : (s.setSlot x v).nests = s.nests := rfl
@[simp] theorem State.setSlot_copies (s : State) (x : Nat) (v : Slot) : (s.setSlot x v).copies = s.copies := rfl
@[simp] theorem State.setSlot_fab (s : State) (x : Nat) (v : Slot) : (s.setSlot x v).fab = s.fab := rfl
@[simp] theorem State.setSlot_links (s : State) (x : Nat) (v : Slot) : (s.setSlot x v).links = s.links := rfl
@[simp] theorem State.setSlot_words (s : State) (x : Nat) (v : Slot) : (s.setSlot x v).words = s.words := rfl
@[simp] theorem State.setSlot_cube (s : State) (x : Nat) (v : Slot) : (s.setSlot x v).cube = s.cube := rfl
@[simp] theorem State.setSlot_rlcs (s : State) (x : Nat) (v : Slot) : (s.setSlot x v).rlcs = s.rlcs := rfl
@[simp] theorem State.setSlot_power (s : State) (x : Nat) (v : Slot) : (s.setSlot x v).power = s.power := rfl
@[simp] theorem State.setSlot_host (s : State) (x : Nat) (v : Slot) : (s.setSlot x v).host = s.host := rfl

@[simp] theorem State.setQueue_agenda (s : State) (q : Nat) (v : Queue) : (s.setQueue q v).agenda = s.agenda := rfl
@[simp] theorem State.setQueue_cur (s : State) (q : Nat) (v : Queue) : (s.setQueue q v).cur = s.cur := rfl
@[simp] theorem State.setQueue_turn (s : State) (q : Nat) (v : Queue) : (s.setQueue q v).turn = s.turn := rfl
@[simp] theorem State.setQueue_issue (s : State) (q : Nat) (v : Queue) : (s.setQueue q v).issue = s.issue := rfl
@[simp] theorem State.setQueue_free (s : State) (q : Nat) (v : Queue) : (s.setQueue q v).free = s.free := rfl
@[simp] theorem State.setQueue_strands (s : State) (q : Nat) (v : Queue) : (s.setQueue q v).strands = s.strands := rfl
@[simp] theorem State.setQueue_nextSid (s : State) (q : Nat) (v : Queue) : (s.setQueue q v).nextSid = s.nextSid := rfl
@[simp] theorem State.setQueue_cores (s : State) (q : Nat) (v : Queue) : (s.setQueue q v).cores = s.cores := rfl
@[simp] theorem State.setQueue_chuck (s : State) (q : Nat) (v : Queue) : (s.setQueue q v).chuck = s.chuck := rfl
@[simp] theorem State.setQueue_parts (s : State) (q : Nat) (v : Queue) : (s.setQueue q v).parts = s.parts := rfl
@[simp] theorem State.setQueue_mem (s : State) (q : Nat) (v : Queue) : (s.setQueue q v).mem = s.mem := rfl
@[simp] theorem State.setQueue_ctxs (s : State) (q : Nat) (v : Queue) : (s.setQueue q v).ctxs = s.ctxs := rfl
@[simp] theorem State.setQueue_nests (s : State) (q : Nat) (v : Queue) : (s.setQueue q v).nests = s.nests := rfl
@[simp] theorem State.setQueue_copies (s : State) (q : Nat) (v : Queue) : (s.setQueue q v).copies = s.copies := rfl
@[simp] theorem State.setQueue_fab (s : State) (q : Nat) (v : Queue) : (s.setQueue q v).fab = s.fab := rfl
@[simp] theorem State.setQueue_links (s : State) (q : Nat) (v : Queue) : (s.setQueue q v).links = s.links := rfl
@[simp] theorem State.setQueue_slots (s : State) (q : Nat) (v : Queue) : (s.setQueue q v).slots = s.slots := rfl
@[simp] theorem State.setQueue_words (s : State) (q : Nat) (v : Queue) : (s.setQueue q v).words = s.words := rfl
@[simp] theorem State.setQueue_cube (s : State) (q : Nat) (v : Queue) : (s.setQueue q v).cube = s.cube := rfl
@[simp] theorem State.setQueue_rlcs (s : State) (q : Nat) (v : Queue) : (s.setQueue q v).rlcs = s.rlcs := rfl
@[simp] theorem State.setQueue_power (s : State) (q : Nat) (v : Queue) : (s.setQueue q v).power = s.power := rfl

@[simp] theorem State.setUal_agenda (s : State) (p : Nat) (v : Ual) : (s.setUal p v).agenda = s.agenda := rfl
@[simp] theorem State.setUal_cur (s : State) (p : Nat) (v : Ual) : (s.setUal p v).cur = s.cur := rfl
@[simp] theorem State.setUal_turn (s : State) (p : Nat) (v : Ual) : (s.setUal p v).turn = s.turn := rfl
@[simp] theorem State.setUal_issue (s : State) (p : Nat) (v : Ual) : (s.setUal p v).issue = s.issue := rfl
@[simp] theorem State.setUal_free (s : State) (p : Nat) (v : Ual) : (s.setUal p v).free = s.free := rfl
@[simp] theorem State.setUal_strands (s : State) (p : Nat) (v : Ual) : (s.setUal p v).strands = s.strands := rfl
@[simp] theorem State.setUal_nextSid (s : State) (p : Nat) (v : Ual) : (s.setUal p v).nextSid = s.nextSid := rfl
@[simp] theorem State.setUal_cores (s : State) (p : Nat) (v : Ual) : (s.setUal p v).cores = s.cores := rfl
@[simp] theorem State.setUal_chuck (s : State) (p : Nat) (v : Ual) : (s.setUal p v).chuck = s.chuck := rfl
@[simp] theorem State.setUal_parts (s : State) (p : Nat) (v : Ual) : (s.setUal p v).parts = s.parts := rfl
@[simp] theorem State.setUal_mem (s : State) (p : Nat) (v : Ual) : (s.setUal p v).mem = s.mem := rfl
@[simp] theorem State.setUal_ctxs (s : State) (p : Nat) (v : Ual) : (s.setUal p v).ctxs = s.ctxs := rfl
@[simp] theorem State.setUal_nests (s : State) (p : Nat) (v : Ual) : (s.setUal p v).nests = s.nests := rfl
@[simp] theorem State.setUal_copies (s : State) (p : Nat) (v : Ual) : (s.setUal p v).copies = s.copies := rfl
@[simp] theorem State.setUal_fab (s : State) (p : Nat) (v : Ual) : (s.setUal p v).fab = s.fab := rfl
@[simp] theorem State.setUal_slots (s : State) (p : Nat) (v : Ual) : (s.setUal p v).slots = s.slots := rfl
@[simp] theorem State.setUal_words (s : State) (p : Nat) (v : Ual) : (s.setUal p v).words = s.words := rfl
@[simp] theorem State.setUal_cube (s : State) (p : Nat) (v : Ual) : (s.setUal p v).cube = s.cube := rfl
@[simp] theorem State.setUal_rlcs (s : State) (p : Nat) (v : Ual) : (s.setUal p v).rlcs = s.rlcs := rfl
@[simp] theorem State.setUal_power (s : State) (p : Nat) (v : Ual) : (s.setUal p v).power = s.power := rfl
@[simp] theorem State.setUal_host (s : State) (p : Nat) (v : Ual) : (s.setUal p v).host = s.host := rfl

@[simp] theorem State.setSpn_agenda (s : State) (p : Nat) (v : Spn) : (s.setSpn p v).agenda = s.agenda := rfl
@[simp] theorem State.setSpn_cur (s : State) (p : Nat) (v : Spn) : (s.setSpn p v).cur = s.cur := rfl
@[simp] theorem State.setSpn_turn (s : State) (p : Nat) (v : Spn) : (s.setSpn p v).turn = s.turn := rfl
@[simp] theorem State.setSpn_issue (s : State) (p : Nat) (v : Spn) : (s.setSpn p v).issue = s.issue := rfl
@[simp] theorem State.setSpn_free (s : State) (p : Nat) (v : Spn) : (s.setSpn p v).free = s.free := rfl
@[simp] theorem State.setSpn_strands (s : State) (p : Nat) (v : Spn) : (s.setSpn p v).strands = s.strands := rfl
@[simp] theorem State.setSpn_nextSid (s : State) (p : Nat) (v : Spn) : (s.setSpn p v).nextSid = s.nextSid := rfl
@[simp] theorem State.setSpn_cores (s : State) (p : Nat) (v : Spn) : (s.setSpn p v).cores = s.cores := rfl
@[simp] theorem State.setSpn_chuck (s : State) (p : Nat) (v : Spn) : (s.setSpn p v).chuck = s.chuck := rfl
@[simp] theorem State.setSpn_parts (s : State) (p : Nat) (v : Spn) : (s.setSpn p v).parts = s.parts := rfl
@[simp] theorem State.setSpn_mem (s : State) (p : Nat) (v : Spn) : (s.setSpn p v).mem = s.mem := rfl
@[simp] theorem State.setSpn_ctxs (s : State) (p : Nat) (v : Spn) : (s.setSpn p v).ctxs = s.ctxs := rfl
@[simp] theorem State.setSpn_nests (s : State) (p : Nat) (v : Spn) : (s.setSpn p v).nests = s.nests := rfl
@[simp] theorem State.setSpn_copies (s : State) (p : Nat) (v : Spn) : (s.setSpn p v).copies = s.copies := rfl
@[simp] theorem State.setSpn_fab (s : State) (p : Nat) (v : Spn) : (s.setSpn p v).fab = s.fab := rfl
@[simp] theorem State.setSpn_slots (s : State) (p : Nat) (v : Spn) : (s.setSpn p v).slots = s.slots := rfl
@[simp] theorem State.setSpn_words (s : State) (p : Nat) (v : Spn) : (s.setSpn p v).words = s.words := rfl
@[simp] theorem State.setSpn_cube (s : State) (p : Nat) (v : Spn) : (s.setSpn p v).cube = s.cube := rfl
@[simp] theorem State.setSpn_rlcs (s : State) (p : Nat) (v : Spn) : (s.setSpn p v).rlcs = s.rlcs := rfl
@[simp] theorem State.setSpn_power (s : State) (p : Nat) (v : Spn) : (s.setSpn p v).power = s.power := rfl
@[simp] theorem State.setSpn_host (s : State) (p : Nat) (v : Spn) : (s.setSpn p v).host = s.host := rfl

@[simp] theorem State.setClk_agenda (s : State) (c : Nat) (v : Clk) : (s.setClk c v).agenda = s.agenda := rfl
@[simp] theorem State.setClk_cur (s : State) (c : Nat) (v : Clk) : (s.setClk c v).cur = s.cur := rfl
@[simp] theorem State.setClk_turn (s : State) (c : Nat) (v : Clk) : (s.setClk c v).turn = s.turn := rfl
@[simp] theorem State.setClk_issue (s : State) (c : Nat) (v : Clk) : (s.setClk c v).issue = s.issue := rfl
@[simp] theorem State.setClk_free (s : State) (c : Nat) (v : Clk) : (s.setClk c v).free = s.free := rfl
@[simp] theorem State.setClk_strands (s : State) (c : Nat) (v : Clk) : (s.setClk c v).strands = s.strands := rfl
@[simp] theorem State.setClk_nextSid (s : State) (c : Nat) (v : Clk) : (s.setClk c v).nextSid = s.nextSid := rfl
@[simp] theorem State.setClk_cores (s : State) (c : Nat) (v : Clk) : (s.setClk c v).cores = s.cores := rfl
@[simp] theorem State.setClk_chuck (s : State) (c : Nat) (v : Clk) : (s.setClk c v).chuck = s.chuck := rfl
@[simp] theorem State.setClk_parts (s : State) (c : Nat) (v : Clk) : (s.setClk c v).parts = s.parts := rfl
@[simp] theorem State.setClk_mem (s : State) (c : Nat) (v : Clk) : (s.setClk c v).mem = s.mem := rfl
@[simp] theorem State.setClk_ctxs (s : State) (c : Nat) (v : Clk) : (s.setClk c v).ctxs = s.ctxs := rfl
@[simp] theorem State.setClk_nests (s : State) (c : Nat) (v : Clk) : (s.setClk c v).nests = s.nests := rfl
@[simp] theorem State.setClk_copies (s : State) (c : Nat) (v : Clk) : (s.setClk c v).copies = s.copies := rfl
@[simp] theorem State.setClk_fab (s : State) (c : Nat) (v : Clk) : (s.setClk c v).fab = s.fab := rfl
@[simp] theorem State.setClk_links (s : State) (c : Nat) (v : Clk) : (s.setClk c v).links = s.links := rfl
@[simp] theorem State.setClk_slots (s : State) (c : Nat) (v : Clk) : (s.setClk c v).slots = s.slots := rfl
@[simp] theorem State.setClk_words (s : State) (c : Nat) (v : Clk) : (s.setClk c v).words = s.words := rfl
@[simp] theorem State.setClk_cube (s : State) (c : Nat) (v : Clk) : (s.setClk c v).cube = s.cube := rfl
@[simp] theorem State.setClk_rlcs (s : State) (c : Nat) (v : Clk) : (s.setClk c v).rlcs = s.rlcs := rfl
@[simp] theorem State.setClk_host (s : State) (c : Nat) (v : Clk) : (s.setClk c v).host = s.host := rfl

@[simp] theorem State.setStack_agenda (s : State) (i : Nat) (v : Stack) : (s.setStack i v).agenda = s.agenda := rfl
@[simp] theorem State.setStack_cur (s : State) (i : Nat) (v : Stack) : (s.setStack i v).cur = s.cur := rfl
@[simp] theorem State.setStack_turn (s : State) (i : Nat) (v : Stack) : (s.setStack i v).turn = s.turn := rfl
@[simp] theorem State.setStack_issue (s : State) (i : Nat) (v : Stack) : (s.setStack i v).issue = s.issue := rfl
@[simp] theorem State.setStack_free (s : State) (i : Nat) (v : Stack) : (s.setStack i v).free = s.free := rfl
@[simp] theorem State.setStack_strands (s : State) (i : Nat) (v : Stack) : (s.setStack i v).strands = s.strands := rfl
@[simp] theorem State.setStack_nextSid (s : State) (i : Nat) (v : Stack) : (s.setStack i v).nextSid = s.nextSid := rfl
@[simp] theorem State.setStack_cores (s : State) (i : Nat) (v : Stack) : (s.setStack i v).cores = s.cores := rfl
@[simp] theorem State.setStack_chuck (s : State) (i : Nat) (v : Stack) : (s.setStack i v).chuck = s.chuck := rfl
@[simp] theorem State.setStack_parts (s : State) (i : Nat) (v : Stack) : (s.setStack i v).parts = s.parts := rfl
@[simp] theorem State.setStack_mem (s : State) (i : Nat) (v : Stack) : (s.setStack i v).mem = s.mem := rfl
@[simp] theorem State.setStack_ctxs (s : State) (i : Nat) (v : Stack) : (s.setStack i v).ctxs = s.ctxs := rfl
@[simp] theorem State.setStack_nests (s : State) (i : Nat) (v : Stack) : (s.setStack i v).nests = s.nests := rfl
@[simp] theorem State.setStack_copies (s : State) (i : Nat) (v : Stack) : (s.setStack i v).copies = s.copies := rfl
@[simp] theorem State.setStack_fab (s : State) (i : Nat) (v : Stack) : (s.setStack i v).fab = s.fab := rfl
@[simp] theorem State.setStack_links (s : State) (i : Nat) (v : Stack) : (s.setStack i v).links = s.links := rfl
@[simp] theorem State.setStack_slots (s : State) (i : Nat) (v : Stack) : (s.setStack i v).slots = s.slots := rfl
@[simp] theorem State.setStack_words (s : State) (i : Nat) (v : Stack) : (s.setStack i v).words = s.words := rfl
@[simp] theorem State.setStack_cube (s : State) (i : Nat) (v : Stack) : (s.setStack i v).cube = s.cube := rfl
@[simp] theorem State.setStack_rlcs (s : State) (i : Nat) (v : Stack) : (s.setStack i v).rlcs = s.rlcs := rfl
@[simp] theorem State.setStack_host (s : State) (i : Nat) (v : Stack) : (s.setStack i v).host = s.host := rfl

@[simp] theorem State.setColl_agenda (s : State) (x : Nat) (v : Coll) : (s.setColl x v).agenda = s.agenda := rfl
@[simp] theorem State.setColl_cur (s : State) (x : Nat) (v : Coll) : (s.setColl x v).cur = s.cur := rfl
@[simp] theorem State.setColl_turn (s : State) (x : Nat) (v : Coll) : (s.setColl x v).turn = s.turn := rfl
@[simp] theorem State.setColl_issue (s : State) (x : Nat) (v : Coll) : (s.setColl x v).issue = s.issue := rfl
@[simp] theorem State.setColl_free (s : State) (x : Nat) (v : Coll) : (s.setColl x v).free = s.free := rfl
@[simp] theorem State.setColl_strands (s : State) (x : Nat) (v : Coll) : (s.setColl x v).strands = s.strands := rfl
@[simp] theorem State.setColl_nextSid (s : State) (x : Nat) (v : Coll) : (s.setColl x v).nextSid = s.nextSid := rfl
@[simp] theorem State.setColl_cores (s : State) (x : Nat) (v : Coll) : (s.setColl x v).cores = s.cores := rfl
@[simp] theorem State.setColl_chuck (s : State) (x : Nat) (v : Coll) : (s.setColl x v).chuck = s.chuck := rfl
@[simp] theorem State.setColl_parts (s : State) (x : Nat) (v : Coll) : (s.setColl x v).parts = s.parts := rfl
@[simp] theorem State.setColl_mem (s : State) (x : Nat) (v : Coll) : (s.setColl x v).mem = s.mem := rfl
@[simp] theorem State.setColl_ctxs (s : State) (x : Nat) (v : Coll) : (s.setColl x v).ctxs = s.ctxs := rfl
@[simp] theorem State.setColl_nests (s : State) (x : Nat) (v : Coll) : (s.setColl x v).nests = s.nests := rfl
@[simp] theorem State.setColl_copies (s : State) (x : Nat) (v : Coll) : (s.setColl x v).copies = s.copies := rfl
@[simp] theorem State.setColl_links (s : State) (x : Nat) (v : Coll) : (s.setColl x v).links = s.links := rfl
@[simp] theorem State.setColl_slots (s : State) (x : Nat) (v : Coll) : (s.setColl x v).slots = s.slots := rfl
@[simp] theorem State.setColl_words (s : State) (x : Nat) (v : Coll) : (s.setColl x v).words = s.words := rfl
@[simp] theorem State.setColl_cube (s : State) (x : Nat) (v : Coll) : (s.setColl x v).cube = s.cube := rfl
@[simp] theorem State.setColl_rlcs (s : State) (x : Nat) (v : Coll) : (s.setColl x v).rlcs = s.rlcs := rfl
@[simp] theorem State.setColl_power (s : State) (x : Nat) (v : Coll) : (s.setColl x v).power = s.power := rfl
@[simp] theorem State.setColl_host (s : State) (x : Nat) (v : Coll) : (s.setColl x v).host = s.host := rfl

end Sys2Proof.Machine
end

