-- ==== Sys2Proof/Laws/Operands.lean ====
section
/-! SUPPORT. What the shared operand operations can do: a read draws free values and no more, the reuse hint touches latches and
no more, a write puts its value into its place (spec R52 to R54, R104, R150). -/

namespace Sys2Proof.Machine

/-! ### The strand at hand -/

@[simp] theorem State.strand?_setStrand (s : State) (i j : Nat) (t : Strand) :
    (s.setStrand i t).strand? j = if i = j then some t else s.strand? j := SMap.find_put s.strands i j t

@[simp] theorem State.me_setMe (s : State) (t : Strand) : (s.setMe t).me = t := by
  simp [State.me, State.setMe]

@[simp] theorem State.view_setMe (s : State) (t : Strand) (h : s.issue.snap ≠ none) : (s.setMe t).view = s.view := by
  cases hs : s.issue.snap with
  | none => exact absurd hs h
  | some u => simp [State.view, hs]

/-! ### States that differ in free values and latches only -/

/-- Two states agree but for the free counter and the reuse latches. -/
def Near (s t : State) : Prop :=
  t = { s with free := t.free, cores := t.cores } ∧ (∀ k, t.cycle k = s.cycle k) ∧ s.free ≤ t.free

theorem Near.refl (s : State) : Near s s := ⟨rfl, fun _ => rfl, Nat.le_refl _⟩

theorem Near.trans {s t u : State} (h : Near s t) (g : Near t u) : Near s u := by
  obtain ⟨h1, h2, h3⟩ := h
  obtain ⟨g1, g2, g3⟩ := g
  refine ⟨?_, fun k => (g2 k).trans (h2 k), Nat.le_trans h3 g3⟩
  rw [g1, h1]

theorem Near.me {s t : State} (h : Near s t) : t.me = s.me := by rw [h.1]; rfl
theorem Near.view {s t : State} (h : Near s t) : t.view = s.view := by rw [h.1]; rfl
theorem Near.cur {s t : State} (h : Near s t) : t.cur = s.cur := by rw [h.1]
theorem Near.issue {s t : State} (h : Near s t) : t.issue = s.issue := by rw [h.1]
theorem Near.strand? {s t : State} (h : Near s t) (i : Nat) : t.strand? i = s.strand? i := by rw [h.1]; rfl
theorem Near.now {s t : State} (h : Near s t) : t.now = s.now := by
  have hc : t.core = s.core := by simp [State.core, h.view]
  simp [State.now, hc, h.2.1]

/-- Any piece but the free counter and the cores is the same. -/
theorem Near.changes {s t : State} (h : Near s t) : Changes [.free, .cores] s t := by
  intro p hp
  rw [h.1]
  cases p <;> simp_all [StatePart.Same]

theorem Near.free_succ (s : State) : Near s { s with free := s.free + 1 } :=
  ⟨rfl, fun _ => rfl, by simp⟩

/-! ### Reads -/

theorem Op.readLoc_near {l : Loc} {s s1 : State} {v : Nat} (h : Op.readLoc l s = .ok (v, s1)) : Near s s1 := by
  simp only [Op.readLoc] at h
  split at h
  · cases h
  · split at h
    · cases h; exact Near.refl s
    · cases h; exact Near.free_succ s

theorem Op.window_same {lo off len : Nat} {s s1 : State} {l : Loc} (h : Op.window lo off len s = .ok (l, s1)) : s1 = s := by
  simp only [Op.window] at h
  split at h
  · cases h; rfl
  · cases h

theorem Op.readLv_near {s s1 : State} {v : Vec} (h : Op.readLv s = .ok (v, s1)) : Near s s1 := by
  simp only [Op.readLv] at h
  split at h
  · cases h; exact Near.free_succ s
  · cases h; exact Near.refl s

theorem Op.readLm_near {s s1 : State} {v : Vec} (h : Op.readLm s = .ok (v, s1)) : Near s s1 := by
  simp only [Op.readLm] at h
  split at h
  · cases h
  · cases h; exact Near.refl s

/-- An operation in two parts answered: the first part answered, and the second from where it left the state. -/
theorem Op.bind_ok {α β : Type} {first : Op α} {next : α → Op β} {s : State} {w : β × State} (h : (first >>= next) s = .ok w) :
    ∃ v mid, first s = .ok (v, mid) ∧ next v mid = .ok w := by
  match e : first s with
  | .ok (v, mid) => exact ⟨v, mid, rfl, by simpa [bind, StateT.bind, Except.bind, e] using h⟩
  | .error x => simp [bind, StateT.bind, Except.bind, e] at h

/-- An operation that answers is followed by what comes next. -/
theorem Op.bind_run {α β : Type} {m : Op α} {f : α → Op β} {s s1 : State} {a : α} (h : m s = .ok (a, s1)) :
    (m >>= f) s = f a s1 := by
  simp only [bind, StateT.bind, Except.bind, h]

theorem Op.pure_ok {α : Type} {a b : α} {s t : State} (h : (pure a : Op α) s = .ok (b, t)) : b = a ∧ t = s := by
  cases h; exact ⟨rfl, rfl⟩

theorem Op.readFile_near {f : Spec} {lane : Vec} {s s1 : State} {v : Vec} (h : Op.readFile f lane s = .ok (v, s1)) : Near s s1 := by
  simp only [Op.readFile] at h
  split at h
  · obtain ⟨a, s2, h1, h2⟩ := Op.bind_ok h
    obtain ⟨-, rfl⟩ := Op.pure_ok h2
    exact Op.readLoc_near h1
  split at h
  · exact (Prod.mk.inj (Except.ok.inj h)).2 ▸ Near.refl s
  split at h
  · exact Op.readLv_near h
  split at h
  · exact Op.readLm_near h
  split at h
  · split at h
    · cases h
    · exact (Prod.mk.inj (Except.ok.inj h)).2 ▸ Near.refl s
  split at h
  · exact (Prod.mk.inj (Except.ok.inj h)).2 ▸ Near.refl s
  split at h
  · exact (Prod.mk.inj (Except.ok.inj h)).2 ▸ Near.refl s
  · exact (Prod.mk.inj (Except.ok.inj h)).2 ▸ Near.refl s

theorem Op.readS_near {f : Spec} {lo : Nat} {s s1 : State} {v : W64} (h : Op.readS f lo s = .ok (v, s1)) : Near s s1 := by
  simp only [Op.readS] at h
  split at h
  · obtain ⟨l, s2, h1, h2⟩ := Op.bind_ok h
    obtain ⟨a, s3, h3, h4⟩ := Op.bind_ok h2
    obtain ⟨-, rfl⟩ := Op.pure_ok h4
    cases Op.window_same h1
    exact Op.readLoc_near h3
  · obtain ⟨a, s3, h3, h4⟩ := Op.bind_ok h
    obtain ⟨-, rfl⟩ := Op.pure_ok h4
    exact Op.readFile_near h3

theorem Op.readV_near {f : Spec} {lo : Nat} {lane : Vec} {s s1 : State} {v : Vec} (h : Op.readV f lo lane s = .ok (v, s1)) :
    Near s s1 := by
  simp only [Op.readV] at h
  split at h
  · obtain ⟨l, s2, h1, h2⟩ := Op.bind_ok h
    obtain ⟨a, s3, h3, h4⟩ := Op.bind_ok h2
    obtain ⟨-, rfl⟩ := Op.pure_ok h4
    cases Op.window_same h1
    exact Op.readLoc_near h3
  · exact Op.readFile_near h

theorem Op.readAB_near {a b : Spec} {s s1 : State} {x y : W64} (h : Op.readAB a b s = .ok ((x, y), s1)) : Near s s1 := by
  obtain ⟨u, s2, h1, h2⟩ := Op.bind_ok h
  obtain ⟨v, s3, h3, h4⟩ := Op.bind_ok h2
  obtain ⟨-, rfl⟩ := Op.pure_ok h4
  exact (Op.readS_near h1).trans (Op.readS_near h3)

/-! ### The reuse hint -/

theorem cycle_set (s : State) (k j : Nat) (c : CoreSt) (h : c.cycle = s.cycle k) :
    ({ s with cores := SMap.set {} s.cores k c } : State).cycle j = s.cycle j := by
  simp only [State.cycle, SMap.get_set]
  split
  · next hk => subst hk; exact h
  · rfl

/-- The reuse hint always answers, and touches latches only. -/
theorem Op.hint_near (ru : Bool) (pb : BitVec 2) (l : List (Bool × Spec)) (s : State) :
    ∃ s1, Op.hint ru pb l s = .ok ((), s1) ∧ Near s s1 := by
  simp only [Op.hint]
  split
  · split
    · exact ⟨s, rfl, Near.refl s⟩
    · exact ⟨_, rfl, rfl, fun k => cycle_set s _ k _ rfl, Nat.le_refl _⟩
  · exact ⟨s, rfl, Near.refl s⟩

end Sys2Proof.Machine
end

