-- ==== Sys2Proof/Laws/Writes.lean ====
section
/-! SUPPORT. Writes of register space: what a place and every other byte reads after one (spec R46, R47, R50, R53, R83). -/

namespace Sys2Proof.Machine

/-! ### Bit fields -/

theorem bset_testBit {n : Nat} (x : BitVec n) (lo len v i : Nat) :
    (bset x lo len v).getLsbD i = (decide (i < n) && if lo ≤ i ∧ i < lo + len then v.testBit (i - lo) else x.getLsbD i) := by
  have hx : ¬ i < n → x.getLsbD i = false := fun h => BitVec.getLsbD_of_ge _ _ (by omega)
  simp only [bset, BitVec.getLsbD_or, BitVec.getLsbD_and, BitVec.getLsbD_not, BitVec.getLsbD_ofNat, Nat.testBit_shiftLeft,
    Nat.testBit_two_pow_sub_one, Nat.testBit_mod_two_pow]
  by_cases hn : i < n
  · by_cases h1 : lo ≤ i
    · by_cases h2 : i < lo + len
      · have h3 : i - lo < len := by omega
        simp [hn, h1, h2, h3]
      · have h3 : ¬ i - lo < len := by omega
        simp [hn, h1, h2, h3]
    · simp [hn, h1]
  · simp [hn, hx]

theorem bfld_testBit {n : Nat} (x : BitVec n) (lo len i : Nat) :
    (bfld x lo len).testBit i = (decide (i < len) && x.getLsbD (lo + i)) := by
  simp [bfld, Nat.testBit_mod_two_pow, Nat.testBit_shiftRight, BitVec.getLsbD]

theorem byteOf_testBit (v k i : Nat) : (byteOf v k).testBit i = (decide (i < 8) && v.testBit (8 * k + i)) := by
  have h : byteOf v k = (v >>> (8 * k)) % 2 ^ 8 := by
    have h8 : (2 : Nat) ^ 8 = 256 := rfl
    rw [byteOf, Nat.shiftRight_eq_div_pow, Nat.pow_mul, h8]
  rw [h, Nat.testBit_mod_two_pow, Nat.testBit_shiftRight]

/-- A byte of a word with a run of bytes replaced. -/
theorem bset_byte {n : Nat} (x : BitVec (8 * n)) (p len v o : Nat) (ho : o < n) :
    bfld (bset x (8 * p) (8 * len) v) (8 * o) 8 = if p ≤ o ∧ o < p + len then byteOf v (o - p) else bfld x (8 * o) 8 := by
  apply Nat.eq_of_testBit_eq
  intro i
  rw [bfld_testBit, bset_testBit]
  by_cases hi : i < 8
  · have h1 : 8 * o + i < 8 * n := by omega
    by_cases h : p ≤ o ∧ o < p + len
    · have h2 : 8 * p ≤ 8 * o + i ∧ 8 * o + i < 8 * p + 8 * len := by omega
      have h3 : 8 * o + i - 8 * p = 8 * (o - p) + i := by omega
      simp [hi, h1, h, h2, h3, byteOf_testBit]
    · have h2 : ¬(8 * p ≤ 8 * o + i ∧ 8 * o + i < 8 * p + 8 * len) := by omega
      rw [if_neg h2, if_neg h, bfld_testBit]
      simp [hi, h1]
  · have : (if p ≤ o ∧ o < p + len then byteOf v (o - p) else bfld x (8 * o) 8).testBit i = false := by
      split
      · rw [byteOf_testBit]; simp [hi]
      · rw [bfld_testBit]; simp [hi]
    rw [this]; simp [hi]

/-! ### Units -/

theorem Strand.regUnit_writeReg (t : Strand) (u p n v w : Nat) :
    (t.writeReg u p n v).regUnit w = if u = w then bset (t.readUnit u) (8 * p) (8 * n) v else t.regUnit w := by
  simp [Strand.writeReg, Strand.regUnit, SMap.get_set]

theorem winUnit_inj {t : Strand} {u w : Nat} (hu : u < t.fr.wsize) (hw : w < t.fr.wsize) (h : t.winUnit u = t.winUnit w) : u = w := by
  simp only [Strand.winUnit] at h
  have hb : t.win.base % t.fr.wsize < t.fr.wsize := Nat.mod_lt _ (by omega)
  generalize t.win.base % t.fr.wsize = b at h hb
  have e1 : (u + t.fr.wsize - b) % t.fr.wsize = if b ≤ u then u - b else u + t.fr.wsize - b := by
    split
    · rw [show u + t.fr.wsize - b = (u - b) + t.fr.wsize by omega, Nat.add_mod_right, Nat.mod_eq_of_lt (by omega)]
    · exact Nat.mod_eq_of_lt (by omega)
  have e2 : (w + t.fr.wsize - b) % t.fr.wsize = if b ≤ w then w - b else w + t.fr.wsize - b := by
    split
    · rw [show w + t.fr.wsize - b = (w - b) + t.fr.wsize by omega, Nat.add_mod_right, Nat.mod_eq_of_lt (by omega)]
    · exact Nat.mod_eq_of_lt (by omega)
  rw [e1, e2] at h
  split at h <;> split at h <;> omega

theorem Strand.deadUnit_self (t : Strand) (u p n v : Nat) : (t.writeReg u p n v).deadUnit (t.winUnit u) = false := by
  have e : (t.writeReg u p n v).deadUnit (t.winUnit u) = (t.rot.size ≠ 0 && decide (t.rot.base ≤ t.winUnit u)
      && decide (t.winUnit u < t.rot.base + t.rot.size) && (if t.deadUnit (t.winUnit u) then
        t.rot.dead.filter (· ≠ t.winUnit u - t.rot.base) else t.rot.dead).contains (t.winUnit u - t.rot.base)) := rfl
  rw [e]
  by_cases hd : t.deadUnit (t.winUnit u) = true
  · simp [hd]
  · rw [if_neg hd]
    simpa [Strand.deadUnit] using hd

theorem Strand.deadUnit_other (t : Strand) (u p n v w : Nat) (h : t.winUnit u ≠ t.winUnit w) :
    (t.writeReg u p n v).deadUnit (t.winUnit w) = t.deadUnit (t.winUnit w) := by
  have e : (t.writeReg u p n v).deadUnit (t.winUnit w) = (t.rot.size ≠ 0 && decide (t.rot.base ≤ t.winUnit w)
      && decide (t.winUnit w < t.rot.base + t.rot.size) && (if t.deadUnit (t.winUnit u) then
        t.rot.dead.filter (· ≠ t.winUnit u - t.rot.base) else t.rot.dead).contains (t.winUnit w - t.rot.base)) := rfl
  rw [e]
  by_cases hd : t.deadUnit (t.winUnit u) = true
  · rw [if_pos hd]
    simp only [Strand.deadUnit, Bool.and_eq_true, decide_eq_true_eq] at hd
    obtain ⟨⟨⟨h1, h2⟩, h3⟩, h4⟩ := hd
    by_cases hw : t.rot.base ≤ t.winUnit w
    · have hne : t.winUnit w - t.rot.base ≠ t.winUnit u - t.rot.base := by omega
      simp [Strand.deadUnit, List.contains_eq_mem, List.mem_filter, hne]
    · simp [Strand.deadUnit, hw]
  · rw [if_neg hd]; rfl

theorem Strand.readUnit_writeReg (t : Strand) (u p n v w : Nat) (hu : u < t.fr.wsize) (hw : w < t.fr.wsize) :
    (t.writeReg u p n v).readUnit w = if u = w then bset (t.readUnit u) (8 * p) (8 * n) v else t.readUnit w := by
  have hwin : (t.writeReg u p n v).winUnit w = t.winUnit w := rfl
  rw [Strand.readUnit, hwin, Strand.regUnit_writeReg]
  by_cases h : u = w
  · subst h; rw [Strand.deadUnit_self]; simp
  · rw [Strand.deadUnit_other _ _ _ _ _ _ (fun e => h (winUnit_inj hu hw e))]
    simp [h, Strand.readUnit]

/-- A write of a place stores its value there and nothing else. -/
theorem Strand.stored_putLoc (t : Strand) (l : Loc) (v : Nat) (hl : l.Inside t) : Stored t (t.putLoc l v) l v := by
  cases l with
  | reg u p n =>
    have hu : u < t.fr.wsize := hl
    refine ⟨?_, ?_, fun i => rfl⟩
    · intro k hk hp
      rw [Strand.regByte]
      show bfld ((t.writeReg u p n v).readUnit u) _ _ = _
      rw [Strand.readUnit_writeReg _ _ _ _ _ _ hu hu, if_pos rfl, bset_byte (n := 256) _ _ _ _ _ (by omega), if_pos (by omega)]
      congr 1; omega
    · intro w o hw ho hn
      rw [Strand.regByte, Strand.regByte]
      show bfld ((t.writeReg u p n v).readUnit w) _ _ = _
      rw [Strand.readUnit_writeReg _ _ _ _ _ _ hu hw]
      split
      · next h =>
        subst h
        rw [bset_byte (n := 256) _ _ _ _ _ ho, if_neg (fun hc => hn ⟨rfl, hc.1, hc.2⟩)]
      · rfl
  | ofile i n =>
    refine ⟨by simp [Strand.putLoc, Strand.entry, SMap.get_set], fun j hj => ?_, fun w o => rfl⟩
    simp [Strand.putLoc, Strand.entry, SMap.get_set, Ne.symm hj]

/-! ### The write of a bundle's word -/

theorem Strand.takeOver_queues (t : Strand) (n : Nat) (l : Loc) : QueuesKept t (t.takeOver n l) := by
  refine ⟨?_, rfl, rfl, rfl, rfl⟩
  simp only [Strand.takeOver, List.map_map]
  apply List.map_congr_left
  intro a _
  simp only [Function.comp, Access.bare]
  split
  · next d hd => split <;> simp [hd]
  · simp

theorem cycle_dropLatchAt (s : State) (sid : Nat) (l : Loc) (k : Nat) : (s.dropLatchAt sid l).cycle k = s.cycle k := by
  simp only [State.cycle, State.dropLatchAt]
  generalize s.cores = m
  induction m with
  | nil => rfl
  | cons e t ih =>
    by_cases h : e.1 = k
    · simp [SMap.get, h]
    · simpa [SMap.get, h] using ih

theorem Alters.mono {l m : List StrandPart} {a b : Strand} (h : Alters l a b) (hm : ∀ f, f ∈ l → f ∈ m) : Alters m a b :=
  fun f hf => h f (fun hl => hf (hm f hl))

theorem Changes.mono {l m : List StatePart} {s t : State} (h : Changes l s t) (hm : ∀ f, f ∈ l → f ∈ m) : Changes m s t :=
  fun f hf => h f (fun hl => hf (hm f hl))

theorem StatePart.Same.trans {s t u : State} {p : StatePart} (h : p.Same s t) (g : p.Same t u) : p.Same s u := by
  cases p <;> simp_all [StatePart.Same]

theorem StrandPart.Same.trans {a b c : Strand} {p : StrandPart} (h : p.Same a b) (g : p.Same b c) : p.Same a c := by
  cases p <;> simp_all [StrandPart.Same]

theorem Alters.trans {l m : List StrandPart} {a b c : Strand} (h : Alters l a b) (g : Alters m b c) : Alters (l ++ m) a c := by
  intro f hf
  rw [List.mem_append, not_or] at hf
  exact (h f hf.1).trans (g f hf.2)

theorem Strand.takeOver_alters (t : Strand) (n : Nat) (l : Loc) : Alters [.q] t (t.takeOver n l) := by
  intro f hf
  cases f <;> first | rfl | exact absurd (by simp) hf

theorem Strand.putLoc_alters (t : Strand) (l : Loc) (v : Nat) : Alters [.regs, .files, .rot] t (t.putLoc l v) := by
  intro f hf
  cases l <;> cases f <;> first | rfl | exact absurd (by simp) hf

/-- A state as a word changes it: its own strand and what is near. -/
theorem OnSelf.of_near {l : List StatePart} {s t u : State} (h : Near s t) (g : OnSelf l t u) : OnSelf l s u := by
  have near (p : StatePart) (hp : p ∉ .strands :: .cores :: .free :: l) : p.Same s t := by
    apply h.changes p
    simp only [List.mem_cons, not_or, List.not_mem_nil, not_false_eq_true, and_true] at hp ⊢
    exact ⟨hp.2.2.1, hp.2.1⟩
  have others : OthersKept s u := fun i hi => by rw [g.2.1 i (by rw [h.cur]; exact hi), h.strand? i]
  exact ⟨fun p hp => (near p hp).trans (g.1 p hp), others, fun k => (g.2.2.1 k).trans (h.2.1 k), Nat.le_trans h.2.2 g.2.2.2⟩

/-- What a write of a place does, as a state. -/
theorem Op.writeLoc_run {l : Loc} {s : State} (v : Nat) (hp : s.view.pendsAt l = false) :
    Op.writeLoc l v s = .ok ((), (s.setMe ((s.me.takeOver s.view.q.next l).putLoc l v)).dropLatchAt s.cur l) := by
  simp [Op.writeLoc, hp]

theorem Op.writeLoc_ok {l : Loc} {s : State} (v : Nat) (hp : s.view.pendsAt l = false) (hl : l.Inside s.me) :
    ∃ t, Op.writeLoc l v s = .ok ((), t) ∧ Delivers [] [] 4 s t l v ∧ t.view = (if s.issue.snap = none then t.me else s.view)
      ∧ t.me.files = ((s.me.takeOver s.view.q.next l).putLoc l v).files ∧ t.cur = s.cur ∧ t.issue = s.issue
      ∧ t.me.vpend = s.me.vpend := by
  refine ⟨_, Op.writeLoc_run v hp, ?_⟩
  generalize ha : s.me.takeOver s.view.q.next l = a
  have hme : ((s.setMe (a.putLoc l v)).dropLatchAt s.cur l).me = a.putLoc l v := by
    show (s.setMe (a.putLoc l v)).me = _
    exact State.me_setMe _ _
  have hq := Strand.takeOver_queues s.me s.view.q.next l
  rw [ha] at hq
  have self : OnSelf [] s ((s.setMe (a.putLoc l v)).dropLatchAt s.cur l) := by
    refine ⟨fun p hp' => ?_, fun i hi => ?_, fun k => by rw [cycle_dropLatchAt]; rfl, Nat.le_refl _⟩
    · cases p <;> simp_all [StatePart.Same, State.dropLatchAt, State.setMe]
    · show (s.setMe (a.putLoc l v)).strand? i = _
      simp [State.setMe, Ne.symm hi]
  have alters : Alters [.regs, .files, .rot, .q] s.me (a.putLoc l v) := by
    rw [← ha]
    refine ((Strand.takeOver_alters _ _ _).trans (Strand.putLoc_alters _ _ _)).mono fun f hf => ?_
    revert hf; cases f <;> decide
  have stored : Stored s.me (a.putLoc l v) l v := by
    subst ha
    have h := Strand.stored_putLoc (s.me.takeOver s.view.q.next l) l v (by cases l <;> exact hl)
    cases l <;> exact h
  have queues : QueuesKept s.me (a.putLoc l v) := by cases l <;> exact hq
  have kept : LastKept [4] s.me (a.putLoc l v) ∧ RotKept s.me (a.putLoc l v) := by
    constructor <;> cases l <;> simp [LastKept, RotKept, Strand.putLoc, Strand.writeReg, ← ha, Strand.takeOver]
  rw [← hme] at alters stored queues kept
  refine ⟨⟨self, alters, stored, queues, kept⟩, ?_, ?_, rfl, rfl, ?_⟩
  · cases hs : s.issue.snap with
    | none => simp [State.view, State.dropLatchAt, State.setMe, hs, State.setStrand, State.me]
    | some u => simp [State.view, State.dropLatchAt, State.setMe, hs, State.setStrand]
  · rw [hme]
  · rw [hme]; subst ha; cases l <;> rfl

/-- A change of the issuing strand that follows an effect. -/
theorem Op.onMe_run (f : Strand → Strand) (s : State) : Op.onMe f s = .ok ((), s.setMe (f s.me)) := rfl

theorem OnSelf.setMe {l : List StatePart} {s t : State} (h : OnSelf l s t) (hc : t.cur = s.cur) (a : Strand) :
    OnSelf l s (t.setMe a) := by
  have parts : Changes (.strands :: .cores :: .free :: l) s (t.setMe a) := fun p hp => by
    have same := h.1 p hp
    cases p <;> simp_all [StatePart.Same]
  have others : OthersKept s (t.setMe a) := fun i hi => by simp [State.setMe, hc, Ne.symm hi, h.2.1 i hi]
  exact ⟨parts, others, fun k => (h.2.2.1 k : _), h.2.2.2⟩

end Sys2Proof.Machine
end

