-- ==== Sys2Proof/Laws/Forms.lean ====
section
/-! SUPPORT. The operand forms: a word whose sources can be read and whose destination can be written answers, with its result in
its place and in the last-result file and nothing else changed (spec R48, R104, R150). -/

namespace Sys2Proof.Machine

theorem Dst8.near {s t : State} {d : Spec} {lo : Nat} {l : Loc} (h : Near s t) (g : Dst8 s d lo l) : Dst8 t d lo l := by
  obtain ⟨g1, g2, g3⟩ := g
  refine ⟨?_, by rw [h.view]; exact g2, by rw [h.me]; exact g3⟩
  simp only [Op.sDst, Op.window, h.view] at g1 ⊢
  split
  · next hd =>
    rw [if_pos hd] at g1
    split
    · next x hx => rw [hx] at g1; cases g1; rfl
    · next hx => rw [hx] at g1; cases g1
  · next hd => rw [if_neg hd] at g1; cases g1; rfl

theorem Dst256.near {s t : State} {d : Spec} {lo : Nat} {l : Loc} (h : Near s t) (g : Dst256 s d lo l) : Dst256 t d lo l := by
  obtain ⟨g1, g2, g3⟩ := g
  refine ⟨?_, by rw [h.view]; exact g2, by rw [h.me]; exact g3⟩
  simp only [Op.vDst, Op.window, h.view] at g1 ⊢
  split
  · next hd =>
    rw [if_pos hd] at g1
    split
    · next x hx => rw [hx] at g1; cases g1; rfl
    · next hx => rw [hx] at g1; cases g1
  · next hd => rw [if_neg hd] at g1; cases g1; rfl

theorem Delivers.of_near {ps : List StatePart} {fs : List StrandPart} {n : Nat} {s t u : State} {l : Loc} {v : Nat} (h : Near s t)
    (g : Delivers ps fs n t u l v) : Delivers ps fs n s u l v := by
  obtain ⟨g1, g2, g3, g4, g5, g6⟩ := g
  rw [h.me] at g2 g3 g4 g5 g6
  exact ⟨OnSelf.of_near h g1, g2, g3, g4, g5, g6⟩

theorem Strand.regByte_congr {a b : Strand} (hr : b.regs = a.regs) (ht : b.rot = a.rot) (hf : b.fr = a.fr) (hw : b.win = a.win)
    (w o : Nat) : b.regByte w o = a.regByte w o := by
  cases a; cases b; cases hr; cases ht; cases hf; cases hw; rfl

/-- A delivery followed by a change of the strand that leaves registers, queues and the rotating region alone. -/
theorem Delivers.andThen {fs : List StrandPart} {n : Nat} {s t : State} {l : Loc} {v : Nat} (h : Delivers [] [] 4 s t l v)
    (hc : t.cur = s.cur) (f : Strand → Strand) (hr : (f t.me).regs = t.me.regs) (ho : (f t.me).files.o = t.me.files.o)
    (hrot : (f t.me).rot = t.me.rot) (hq : (f t.me).q = t.me.q) (hlast : LastKept [n] t.me (f t.me))
    (hw : (f t.me).fr = t.me.fr) (hb : (f t.me).win = t.me.win) (ha : Alters (.files :: fs) t.me (f t.me)) :
    Delivers [] fs n s (t.setMe (f t.me)) l v := by
  obtain ⟨h1, h2, h3, h4, h5, h6⟩ := h
  have hbyte : ∀ w o, (f t.me).regByte w o = t.me.regByte w o := by
    exact Strand.regByte_congr hr hrot hw hb
  have hent : ∀ i, (f t.me).entry i = t.me.entry i := by
    intro i; simp only [Strand.entry, ho]
  refine ⟨h1.setMe hc _, ?_, ?_, ?_, ?_, ?_⟩
  · rw [State.me_setMe]
    refine (h2.trans ha).mono fun g hg => ?_
    simp only [List.mem_append, List.mem_cons, List.not_mem_nil, or_false] at hg ⊢
    rcases hg with (h | h | h | h) | h | h <;> simp [h]
  · rw [State.me_setMe]
    cases l with
    | reg u p m =>
      obtain ⟨a1, a2, a3⟩ := h3
      exact ⟨fun k hk hp => (hbyte _ _).trans (a1 k hk hp), fun w o hw ho hn => (hbyte _ _).trans (a2 w o hw ho hn),
        fun i => (hent i).trans (a3 i)⟩
    | ofile i m =>
      obtain ⟨a1, a2, a3⟩ := h3
      exact ⟨(hent i).trans a1, fun j hj => (hent j).trans (a2 j hj), fun w o => (hbyte w o).trans (a3 w o)⟩
  · rw [State.me_setMe]; simp only [QueuesKept, hq]; exact h4
  · rw [State.me_setMe]
    obtain ⟨b0, b1, b2, b3⟩ := h5
    obtain ⟨c0, c1, c2, c3⟩ := hlast
    refine ⟨fun g => (c0 g).trans (b0 (by decide)), fun g => ?_, fun g => (c2 g).trans (b2 (by decide)), fun g => ?_⟩
    · exact ⟨(c1 g).1.trans (b1 (by decide)).1, (c1 g).2.trans (b1 (by decide)).2⟩
    · exact ⟨(c3 g).1.trans (b3 (by decide)).1, (c3 g).2.trans (b3 (by decide)).2⟩
  · rw [State.me_setMe, RotKept, hrot]; exact h6

/-- The result of an S word answers: d and `ls` hold it. -/
theorem Op.writeS_ok {s : State} {d : Spec} {lo : Nat} {l : Loc} (v : W64) (h : Dst8 s d lo l) :
    ∃ t, Op.writeS d lo v s = .ok ((), t) ∧ ScalarResult s t l v := by
  obtain ⟨h1, h2, h3⟩ := h
  obtain ⟨t, ht, hd, -, -, hc, -, -⟩ := Op.writeLoc_ok v.toNat h2 h3
  refine ⟨t.setMe { t.me with files := { t.me.files with ls := v } }, ?_, ?_, ?_⟩
  · rw [Op.writeS, Op.bind_run h1, Op.bind_run ht]; rfl
  · exact hd.andThen hc (fun u => { u with files := { u.files with ls := v } }) rfl rfl rfl rfl (by simp [LastKept]) rfl rfl
      (by intro f hf; cases f <;> first | rfl | exact absurd (by simp) hf)
  · simp

theorem runOp_ok {m : Op Unit} {s t : State} (h : m s = .ok ((), t)) : runOp m s = .next t := by
  simp only [runOp, h]

/-- A short S form with two sources. -/
theorem Op.formS_next {f : SForm} {s s1 : State} {x y : W64} {l : Loc} (g : W64 → W64 → W64)
    (hr : Op.readAB f.a f.b s = .ok ((x, y), s1)) (hd : Dst8 s f.d 16 l) :
    ∃ t, runOp (Op.formS f g) s = .next t ∧ ScalarResult s t l (g x y) := by
  have n1 := Op.readAB_near hr
  obtain ⟨s2, h2, n2⟩ := Op.hint_near f.ru f.pb [(false, f.a), (false, f.b)] s1
  have n := n1.trans n2
  obtain ⟨t, ht, hd1, hls⟩ := Op.writeS_ok (g x y) (hd.near n)
  refine ⟨t, runOp_ok ?_, hd1.of_near n, hls⟩
  rw [Op.formS, Op.bind_run hr]
  exact (Op.bind_run h2).trans ht

/-- A short S form with one source. -/
theorem Op.formS1_next {f : SForm} {s s1 : State} {x : W64} {l : Loc} (g : W64 → W64)
    (hr : Op.readS f.a 10 s = .ok (x, s1)) (hd : Dst8 s f.d 16 l) :
    ∃ t, runOp (Op.formS1 f g) s = .next t ∧ ScalarResult s t l (g x) := by
  have n1 := Op.readS_near hr
  obtain ⟨s2, h2, n2⟩ := Op.hint_near f.ru f.pb [(false, f.a)] s1
  have n := n1.trans n2
  obtain ⟨t, ht, hd1, hls⟩ := Op.writeS_ok (g x) (hd.near n)
  refine ⟨t, runOp_ok ?_, hd1.of_near n, hls⟩
  rw [Op.formS1, Op.bind_run hr, Op.bind_run h2]; exact ht

/-- An SI-I form. -/
theorem Op.formI_next {f : IForm} {s s1 : State} {x : W64} {l : Loc} (g : W64 → BitVec 10 → W64)
    (hr : Op.readS f.a 13 s = .ok (x, s1)) (hd : Dst8 s f.d 19 l) :
    ∃ t, runOp (Op.formI f g) s = .next t ∧ ScalarResult s t l (g x f.imm) := by
  have n1 := Op.readS_near hr
  obtain ⟨s2, h2, n2⟩ := Op.hint_near f.ru f.pb [(false, f.a)] s1
  have n := n1.trans n2
  obtain ⟨t, ht, hd1, hls⟩ := Op.writeS_ok (g x f.imm) (hd.near n)
  refine ⟨t, runOp_ok ?_, hd1.of_near n, hls⟩
  rw [Op.formI, Op.bind_run hr, Op.bind_run h2]; exact ht

end Sys2Proof.Machine
end

