-- ==== Sys2Proof/Laws/Get.lean ====
section
/-! SUPPORT. A read of one piece after the update of another: what each setter leaves in its own map, and which piece of the state it
may change. -/

namespace Sys2Proof.Machine

/-- Pieces changed twice over. -/
theorem Changes.trans {l m : List StatePart} {s t u : State} (h : Changes l s t) (g : Changes m t u) : Changes (l ++ m) s u := by
  intro p hp
  rw [List.mem_append, not_or] at hp
  have h := h p hp.1
  have g := g p hp.2
  cases p <;> simp_all [StatePart.Same]

theorem Changes.refl (l : List StatePart) (s : State) : Changes l s s := by
  intro p _
  cases p <;> simp [StatePart.Same]

/-- The same list of pieces twice over. -/
theorem Changes.then {l : List StatePart} {s t u : State} (h : Changes l s t) (g : Changes l t u) : Changes l s u := by
  intro p hp
  have h := h p hp
  have g := g p hp
  cases p <;> simp_all [StatePart.Same]

/-- A longer list of pieces. -/
theorem Changes.weaken {l m : List StatePart} {s t : State} (h : Changes l s t) (hm : ∀ f, f ∈ l → f ∈ m) : Changes m s t :=
  fun f hf => h f fun hl => hf (hm f hl)

/-- A change carried out piece by piece. -/
theorem Changes.foldl {β : Type} {l : List StatePart} {f : State → β → State} (hf : ∀ s b, Changes l s (f s b)) (bs : List β) :
    ∀ s, Changes l s (bs.foldl f s) := by
  induction bs with
  | nil => intro s; exact Changes.refl l s
  | cons b t ih => intro s; exact (hf s b).then (ih _)

theorem State.setStrand_changes (s : State) (i : Nat) (v : Strand) : Changes [.strands] s (s.setStrand i v) := by
  intro p hp; cases p <;> first | rfl | exact ⟨rfl, fun _ => rfl⟩ | exact absurd (by simp) hp

theorem State.node_setNode (s : State) (i j : Nat) (v : Node) : (s.setNode i v).node j = if i = j then v else s.node j :=
  SMap.get_set (α := Node) {} s.chuck.nodes i j v
@[simp] theorem State.node_setNode_self (s : State) (i : Nat) (v : Node) : (s.setNode i v).node i = v := by
  rw [State.node_setNode, if_pos rfl]
theorem State.setNode_changes (s : State) (i : Nat) (v : Node) : Changes [.chuck] s (s.setNode i v) := by
  intro p hp; cases p <;> first | rfl | exact ⟨rfl, fun _ => rfl⟩ | exact absurd (by simp) hp

theorem State.part_setPart (s : State) (i j : Nat) (v : Part) : (s.setPart i v).part j = if i = j then v else s.part j :=
  SMap.get_set (α := Part) {} s.parts i j v
@[simp] theorem State.part_setPart_self (s : State) (i : Nat) (v : Part) : (s.setPart i v).part i = v := by
  rw [State.part_setPart, if_pos rfl]
theorem State.setPart_changes (s : State) (i : Nat) (v : Part) : Changes [.parts] s (s.setPart i v) := by
  intro p hp; cases p <;> first | rfl | exact ⟨rfl, fun _ => rfl⟩ | exact absurd (by simp) hp

theorem State.ctx_setCtx (s : State) (i j : Nat) (v : Ctx) : (s.setCtx i v).ctx j = if i = j then v else s.ctx j :=
  SMap.get_set (α := Ctx) {} s.ctxs i j v
@[simp] theorem State.ctx_setCtx_self (s : State) (i : Nat) (v : Ctx) : (s.setCtx i v).ctx i = v := by
  rw [State.ctx_setCtx, if_pos rfl]
theorem State.setCtx_changes (s : State) (i : Nat) (v : Ctx) : Changes [.ctxs] s (s.setCtx i v) := by
  intro p hp; cases p <;> first | rfl | exact ⟨rfl, fun _ => rfl⟩ | exact absurd (by simp) hp

theorem State.rlc_setRlc (s : State) (i j : Nat) (v : Rlc) : (s.setRlc i v).rlc j = if i = j then v else s.rlc j :=
  SMap.get_set (α := Rlc) {} s.rlcs i j v
@[simp] theorem State.rlc_setRlc_self (s : State) (i : Nat) (v : Rlc) : (s.setRlc i v).rlc i = v := by
  rw [State.rlc_setRlc, if_pos rfl]
theorem State.setRlc_changes (s : State) (i : Nat) (v : Rlc) : Changes [.rlcs] s (s.setRlc i v) := by
  intro p hp; cases p <;> first | rfl | exact ⟨rfl, fun _ => rfl⟩ | exact absurd (by simp) hp

theorem State.slot_setSlot (s : State) (i j : Nat) (v : Slot) : (s.setSlot i v).slot j = if i = j then v else s.slot j :=
  SMap.get_set (α := Slot) {} s.slots i j v
@[simp] theorem State.slot_setSlot_self (s : State) (i : Nat) (v : Slot) : (s.setSlot i v).slot i = v := by
  rw [State.slot_setSlot, if_pos rfl]
theorem State.setSlot_changes (s : State) (i : Nat) (v : Slot) : Changes [.slots] s (s.setSlot i v) := by
  intro p hp; cases p <;> first | rfl | exact ⟨rfl, fun _ => rfl⟩ | exact absurd (by simp) hp

theorem State.coll_setColl (s : State) (i j : Nat) (v : Coll) : (s.setColl i v).coll j = if i = j then v else s.coll j :=
  SMap.get_set (α := Coll) {} s.fab.colls i j v
@[simp] theorem State.coll_setColl_self (s : State) (i : Nat) (v : Coll) : (s.setColl i v).coll i = v := by
  rw [State.coll_setColl, if_pos rfl]
theorem State.setColl_changes (s : State) (i : Nat) (v : Coll) : Changes [.fab] s (s.setColl i v) := by
  intro p hp; cases p <;> first | rfl | exact ⟨rfl, fun _ => rfl⟩ | exact absurd (by simp) hp

theorem State.ual_setUal (s : State) (i j : Nat) (v : Ual) : (s.setUal i v).ual j = if i = j then v else s.ual j :=
  SMap.get_set (α := Ual) {} s.links.ual i j v
@[simp] theorem State.ual_setUal_self (s : State) (i : Nat) (v : Ual) : (s.setUal i v).ual i = v := by
  rw [State.ual_setUal, if_pos rfl]
theorem State.setUal_changes (s : State) (i : Nat) (v : Ual) : Changes [.links] s (s.setUal i v) := by
  intro p hp; cases p <;> first | rfl | exact ⟨rfl, fun _ => rfl⟩ | exact absurd (by simp) hp

theorem State.spn_setSpn (s : State) (i j : Nat) (v : Spn) : (s.setSpn i v).spn j = if i = j then v else s.spn j :=
  SMap.get_set (α := Spn) {} s.links.spn i j v
@[simp] theorem State.spn_setSpn_self (s : State) (i : Nat) (v : Spn) : (s.setSpn i v).spn i = v := by
  rw [State.spn_setSpn, if_pos rfl]
theorem State.setSpn_changes (s : State) (i : Nat) (v : Spn) : Changes [.links] s (s.setSpn i v) := by
  intro p hp; cases p <;> first | rfl | exact ⟨rfl, fun _ => rfl⟩ | exact absurd (by simp) hp

theorem State.ring_setRing (s : State) (i j : Nat) (v : Ring) : (s.setRing i v).ring j = if i = j then v else s.ring j :=
  SMap.get_set (α := Ring) {} s.links.rings i j v
@[simp] theorem State.ring_setRing_self (s : State) (i : Nat) (v : Ring) : (s.setRing i v).ring i = v := by
  rw [State.ring_setRing, if_pos rfl]
theorem State.setRing_changes (s : State) (i : Nat) (v : Ring) : Changes [.links] s (s.setRing i v) := by
  intro p hp; cases p <;> first | rfl | exact ⟨rfl, fun _ => rfl⟩ | exact absurd (by simp) hp

theorem State.laser_setLaser (s : State) (i j : Nat) (v : Laser) : (s.setLaser i v).laser j = if i = j then v else s.laser j :=
  SMap.get_set (α := Laser) {} s.links.lasers i j v
@[simp] theorem State.laser_setLaser_self (s : State) (i : Nat) (v : Laser) : (s.setLaser i v).laser i = v := by
  rw [State.laser_setLaser, if_pos rfl]
theorem State.setLaser_changes (s : State) (i : Nat) (v : Laser) : Changes [.links] s (s.setLaser i v) := by
  intro p hp; cases p <;> first | rfl | exact ⟨rfl, fun _ => rfl⟩ | exact absurd (by simp) hp

theorem State.queue_setQueue (s : State) (i j : Nat) (v : Queue) : (s.setQueue i v).queue j = if i = j then v else s.queue j :=
  SMap.get_set (α := Queue) {} s.host.queues i j v
@[simp] theorem State.queue_setQueue_self (s : State) (i : Nat) (v : Queue) : (s.setQueue i v).queue i = v := by
  rw [State.queue_setQueue, if_pos rfl]
theorem State.setQueue_changes (s : State) (i : Nat) (v : Queue) : Changes [.host] s (s.setQueue i v) := by
  intro p hp; cases p <;> first | rfl | exact ⟨rfl, fun _ => rfl⟩ | exact absurd (by simp) hp

theorem State.clk_setClk (s : State) (i j : Nat) (v : Clk) : (s.setClk i v).clk j = if i = j then v else s.clk j :=
  SMap.get_set (α := Clk) {} s.power.clks i j v
@[simp] theorem State.clk_setClk_self (s : State) (i : Nat) (v : Clk) : (s.setClk i v).clk i = v := by
  rw [State.clk_setClk, if_pos rfl]
theorem State.setClk_changes (s : State) (i : Nat) (v : Clk) : Changes [.power] s (s.setClk i v) := by
  intro p hp; cases p <;> first | rfl | exact ⟨rfl, fun _ => rfl⟩ | exact absurd (by simp) hp

theorem State.stack_setStack (s : State) (i j : Nat) (v : Stack) : (s.setStack i v).stack j = if i = j then v else s.stack j :=
  SMap.get_set (α := Stack) {} s.power.hbm i j v
@[simp] theorem State.stack_setStack_self (s : State) (i : Nat) (v : Stack) : (s.setStack i v).stack i = v := by
  rw [State.stack_setStack, if_pos rfl]
theorem State.setStack_changes (s : State) (i : Nat) (v : Stack) : Changes [.power] s (s.setStack i v) := by
  intro p hp; cases p <;> first | rfl | exact ⟨rfl, fun _ => rfl⟩ | exact absurd (by simp) hp

end Sys2Proof.Machine
end

