-- ==== Sys2Proof/Tests/Slice0.lean ====
section
/-! SUPPORT. Tests: decoding of words written out from the spec's encodings, the smoke test of WellFormed, single steps whose results
the spec gives, and for each statement the states and operands that meet its hypotheses. -/

namespace Sys2Proof.Machine

-- one theorem at a time: the kernel checks below would else each hold a thread
set_option Elab.async false

/-! ### Decoding: words field by field (R80, R82, R86 to R90), opcodes from R93 to R100 -/

theorem test_decode_sub : decodeInstr (0#1 ++ 0#3 ++ 0x02#6 ++ 5#6 ++ 6#6 ++ 61#6 ++ 0#2 ++ 1#1 ++ 0#1) 0
    = .ok (.sub ⟨5, 6, 61, 0, true, false⟩) := rfl
theorem test_decode_cmp_ge : decodeInstr (0#1 ++ 0#3 ++ 0x20#6 ++ 55#6 ++ 47#6 ++ 60#6 ++ 3#2 ++ 0#1 ++ 1#1) 0
    = .ok (.cmpGe ⟨55, 47, 60, 3, false, true⟩) := rfl
theorem test_decode_bfx : decodeInstr (1#1 ++ 0#3 ++ 0x30#6 ++ 1#6 ++ 2#6 ++ 0#6 ++ 1#2 ++ 0#2)
    (0#1 ++ 0#3 ++ 0#6 ++ 5#6 ++ 7#7 ++ 1#1 ++ 0#8) = .ok (.bfx ⟨1, 2, 0, 0, 1, false, 5#6 ++ 7#7 ++ 1#1 ++ 0#8⟩) := rfl
theorem test_decode_shli : decodeInstr (0#1 ++ 1#3 ++ 4#3 ++ 48#6 ++ 49#6 ++ 2#2 ++ 1#1 ++ 63#10) 0
    = .ok (.shli ⟨48, 49, 2, true, 63⟩) := rfl
theorem test_decode_movi : decodeInstr (0#1 ++ 1#3 ++ 6#3 ++ 9#6 ++ 0x7FFFF#19) 0 = .ok (.movi 9 0x7FFFF) := rfl
theorem test_decode_movhi : decodeInstr (1#1 ++ 1#3 ++ 7#3 ++ 9#6 ++ 8#6 ++ 1#2 ++ 0#1 ++ 0#10)
    (0#1 ++ 1#3 ++ 0#10 ++ 2#2 ++ 0xABCD#16) = .ok (.movhi ⟨9, 8, 1, false, 2, 0xABCD⟩) := rfl
theorem test_decode_br : decodeInstr (0#1 ++ 6#3 ++ 0#4 ++ 0xFFFFFF#24) 0 = .ok (.br 0xFFFFFF) := rfl
theorem test_decode_loopn : decodeInstr (0#1 ++ 6#3 ++ 8#4 ++ 0#2 ++ 3#6 ++ 1#2 ++ 0#6 ++ 200#8) 0 = .ok (.loopn 3 1 200) := rfl
theorem test_decode_spawn : decodeInstr (0#1 ++ 6#3 ++ 0xB#4 ++ 0#2 ++ 3#6 ++ 4#6 ++ 1#2 ++ 0#8) 0 = .ok (.spawn 3 4 1) := rfl
theorem test_decode_enter : decodeInstr (0#1 ++ 6#3 ++ 6#4 ++ 0#13 ++ 1024#11) 0 = .ok (.enter 1024) := rfl
theorem test_decode_trap : decodeInstr (0#1 ++ 7#3 ++ 0#4 ++ 0#8 ++ 0xBEEF#16) 0 = .ok (.trap 0xBEEF) := rfl
theorem test_decode_phint : decodeInstr (0#1 ++ 7#3 ++ 2#4 ++ 1#6 ++ 2#6 ++ 3#6 ++ 1#2 ++ 0#4) 0 = .ok (.phint ⟨1, 2, 3, 1⟩) := rfl
theorem test_decode_csrw : decodeInstr (0#1 ++ 7#3 ++ 4#4 ++ 7#6 ++ 2#2 ++ 0#4 ++ 0x020#12) 0 = .ok (.csrw ⟨7, 2, 0x020⟩) := rfl
theorem test_decode_view : decodeInstr (0#1 ++ 7#3 ++ 7#4 ++ 1#2 ++ 0#4 ++ 0x300#18) 0 = .ok (.view 1 0x300) := rfl
theorem test_decode_fma : decodeInstr (1#1 ++ 2#3 ++ 0x03#6 ++ 1#6 ++ 2#6 ++ 3#6 ++ 0#2 ++ 1#1 ++ 0#1)
    (0#1 ++ 2#3 ++ 4#6 ++ 0x10#5 ++ 3#2 ++ 0#1 ++ 1#1 ++ 1#1 ++ 0#1 ++ 0#5 ++ 0#4 ++ 0#2)
    = .ok (.fma ⟨1, 2, 3, 4, 0, true, 0x10, 3, false, true, true, false, 0, 0⟩) := rfl
theorem test_decode_fcvt : decodeInstr (1#1 ++ 2#3 ++ 0x17#6 ++ 1#6 ++ 2#6 ++ 60#6 ++ 0#2 ++ 0#1 ++ 0#1)
    (0#1 ++ 2#3 ++ 0#6 ++ 0x14#5 ++ 1#2 ++ 1#1 ++ 0#1 ++ 0#1 ++ 1#1 ++ 0x11#5 ++ 3#4 ++ 0#2)
    = .ok (.fcvt ⟨1, 2, 60, 0, 0, false, 0x14, 1, true, false, false, true, 0x11, 3⟩) := rfl
theorem test_decode_vcmp : decodeInstr (1#1 ++ 3#3 ++ 0x10#6 ++ 1#6 ++ 2#6 ++ 3#6 ++ 2#2 ++ 0#2)
    (0#1 ++ 3#3 ++ 0#6 ++ 5#5 ++ 0#2 ++ 0#1 ++ 0#8 ++ 4#4 ++ 0#2)
    = .ok (.vcmp ⟨1, 2, 3, 0, 2, false, 5, 0, false, 0, 4⟩) := rfl
theorem test_decode_viota : decodeInstr (1#1 ++ 3#3 ++ 0x23#6 ++ 1#6 ++ 2#6 ++ 0#6 ++ 0#2 ++ 0#2)
    (0#1 ++ 3#3 ++ 0#6 ++ 2#5 ++ 1#2 ++ 0#1 ++ 0#8 ++ 0#4 ++ 0#2)
    = .ok (.viota ⟨1, 2, 0, 0, 0, false, 2, 1, false, 0, 0⟩) := rfl
theorem test_decode_st_i64 : decodeInstr (0#1 ++ 4#3 ++ 0x0A#6 ++ 1#6 ++ 2#6 ++ 60#6 ++ 0#2 ++ 1#1 ++ 0#1) 0
    = .ok (.stI64 ⟨1, 2, 60, 0, true⟩) := rfl
theorem test_decode_fence : decodeInstr (0#1 ++ 4#3 ++ 0x1C#6 ++ 7#6 ++ 4#6 ++ 0#10) 0 = .ok (.fence 7 4) := rfl
theorem test_decode_waitf : decodeInstr (0#1 ++ 4#3 ++ 0x1D#6 ++ 5#6 ++ 7#6 ++ 0#6 ++ 0#2 ++ 0#1 ++ 1#1) 0 = .ok (.waitf 5 7 true) := rfl
theorem test_decode_acas : decodeInstr (1#1 ++ 4#3 ++ 0x29#6 ++ 1#6 ++ 2#6 ++ 3#6 ++ 0#2 ++ 0#2)
    (0#1 ++ 4#3 ++ 4#6 ++ 7#5 ++ 3#3 ++ 0b1000#4 ++ 0#10) = .ok (.acas ⟨1, 2, 3, 4, 0, false, 7, 3, 8⟩) := rfl
theorem test_decode_copyn : decodeInstr (1#1 ++ 4#3 ++ 0x30#6 ++ 1#6 ++ 2#6 ++ 3#6 ++ 0#2 ++ 0#2)
    (0#1 ++ 4#3 ++ 4#6 ++ 0#6 ++ 0x00FF#16) = .ok (.copyn ⟨1, 2, 3, 4, 0, false, 0x00FF⟩) := rfl
theorem test_decode_cdesc : decodeInstr (1#1 ++ 5#3 ++ 0x01#6 ++ 60#6 ++ 2#6 ++ 3#6 ++ 0#2 ++ 0#2)
    (0#1 ++ 5#3 ++ 60#6 ++ 0x14#5 ++ 1#1 ++ 0#2 ++ 1#1 ++ 0#13)
    = .ok (.cdesc ⟨60, 2, 3, 60, 0, false, 0x14#5 ++ 1#1 ++ 0#2 ++ 1#1 ++ 0#13⟩) := rfl
theorem test_decode_palloc : decodeInstr (1#1 ++ 5#3 ++ 0x1C#6 ++ 1#6 ++ 2#6 ++ 3#6 ++ 1#2 ++ 0#2) (0#1 ++ 5#3 ++ 0#6 ++ 0#22)
    = .ok (.palloc ⟨1, 2, 3, 0, 1, false, 0⟩) := rfl
theorem test_decode_refine : decodeInstr (1#1 ++ 5#3 ++ 0x28#6 ++ 1#6 ++ 2#6 ++ 0#6 ++ 1#2 ++ 0#2) (0#1 ++ 5#3 ++ 0#6 ++ 0#2 ++ 9#4 ++ 0#16)
    = .ok (.refine ⟨1, 2, 0, 0, 1, false, 0#2 ++ 9#4 ++ 0#16⟩) := rfl
/-- R102: the all-zero word, and a word of ones. -/
theorem test_decode_fixed_words : decodeInstr 0 0 = .error (.illegalOpcode (22, 6)) ∧ decodeInstr 0xFFFFFFFF 0 = .error (.illegalOpcode (24, 4))
    ∧ decodeBundle { cic := false, csrRead := fun _ => true, csrWrite := fun _ => true } [0xFFFFFFFF, 0xFFFFFFFF, 0xFFFFFFFF] 0
      = (.error ⟨.illegalBundle (28, 3), 0, 0xFFFFFFFF⟩, 3) := ⟨rfl, rfl, rfl⟩

/-! ### The smoke test of WellFormed: each check refuses an ill-formed term (R84 to R92, R101) -/

theorem test_wf_roles :
    ([.clz ⟨1, 2, 1, 0, false, false⟩, .add ⟨56, 2, 3, 0, false, false⟩, .add ⟨62, 60, 60, 0, false, false⟩, .add ⟨1, 63, 60, 0, false, false⟩,
      .add ⟨63, 60, 60, 0, false, false⟩, .add ⟨1, 2, 3, 3, false, false⟩, .add ⟨1, 2, 3, 0, false, true⟩, .touch ⟨1, 2, 3, 0, false⟩,
      .waitf 1 0 false, .stv ⟨63, 2, 3, 0, false⟩, .tlread ⟨1, 1, 0, 0, 0, false, 0⟩, .loop ⟨0, 60, 0, 0⟩, .vins ⟨60, 1, 0, 0, 0, false, 2, 0, false, 0, 0⟩]
      : List Instr).all (fun i => !i.wf) = true := by decide

theorem test_wf_scalar_codes :
    ([.sext ⟨1, 2, 3, 0, false, false⟩, .shli ⟨1, 2, 0, false, 64⟩, .shri ⟨1, 2, 0, false, 1023⟩, .bfx ⟨1, 2, 0, 0, 0, false, 0⟩,
      .bfx ⟨1, 2, 0, 0, 0, false, 65 * 512⟩, .bfi ⟨1, 2, 0, 0, 0, false, 60 * 65536 + 5 * 512⟩, .bfi ⟨1, 2, 0, 0, 0, false, 512 + 256⟩,
      .sel ⟨1, 2, 3, 4, 0, false, 1⟩, .loop ⟨1, 2, 0, 0⟩, .loopn 2 0 0, .csrr ⟨1, 1, 0x10⟩, .fence 8 0, .fence 0 5, .waitf 1 8 true]
      : List Instr).all (fun i => !i.wf) = true := by decide

/-- A VF term of a type, lat, the bits RNE, FZI, FZO and SAT, type2 and cc. -/
def vf (typ : BitVec 5) (lat : BitVec 2) (r z o s : Bool) (typ2 : BitVec 5) (cc : BitVec 4) : FForm :=
  ⟨48, 49, 50, 0, 0, false, typ, lat, r, z, o, s, typ2, cc⟩

/-- A VI term of a type, lat, SAT, immediate and cc. -/
def vi (typ : BitVec 5) (lat : BitVec 2) (sat : Bool) (imm : BitVec 8) (cc : BitVec 4) : VForm :=
  ⟨48, 49, 50, 0, 0, false, typ, lat, sat, imm, cc⟩

theorem test_wf_vector_codes :
    ([.fadd (vf 2 1 false false false false 0 0), .fadd (vf 16 0 false false false false 0 0), .fmin { vf 16 0 true false false false 0 0 with b := 50 },
      .fcpys (vf 16 0 false true false false 0 0), .fround { vf 16 1 false false true false 0 0 with b := 0 }, .fadd (vf 16 1 false false false true 0 0),
      .fadd (vf 16 1 false false false false 1 0), .fadd (vf 16 1 false false false false 0 1), .fcmp (vf 16 0 false false false false 0 8),
      .fcvt { vf 17 1 false false false true 16 0 with b := 60 }, .fcvt (vf 17 1 false false false false 16 0),
      .fcvt { vf 17 1 false false false false 16 2 with b := 60 }, .fbscale { vf 17 1 false false false false 19 0 with c := 8 },
      .fpacksd { vf 20 2 false false false false 17 4 with b := 60 }, .vadd (vi 9 0 false 0 0), .vmul (vi 2 0 false 0 0), .vand (vi 2 0 true 0 0),
      .vadd (vi 2 0 false 1 0), .vadd (vi 2 0 false 0 1), .vcmp (vi 2 0 false 0 6), .vrot { vi 3 1 false 32 0 with b := 0 },
      .vscan { vi 2 2 false 6 0 with b := 0 }, .vscan { vi 2 2 true 1 0 with b := 0 }, .vclmul (vi 3 1 false 2 0), .vpack (vi 0 1 false 2 0),
      .vunpack { vi 1 1 false 1 0 with b := 0 }, .vsat { vi 0 0 false 1 0 with b := 0 }, .vdot4 { vi 2 1 false 1 0 with c := 51 }]
      : List Instr).all (fun i => !i.wf) = true := by decide

/-- A long M term of a type, scope and fn. -/
def am (typ : BitVec 5) (scope : BitVec 3) (fn : BitVec 4) : AForm := ⟨48, 49, 50, 0, 0, false, typ, scope, fn⟩

/-- An X term of a mod field. -/
def xm (mod : BitVec 22) : LForm := ⟨48, 49, 50, 0, 0, false, mod⟩

theorem test_wf_memory_and_engine_codes :
    ([.aadd (am 0 0 0), .aadd (am 2 5 0), .aadd (am 2 0 1), .alog (am 2 0 3), .gather { am 2 1 0 with c := 51 }, .mred { am 16 0 3 with b := 0 },
      .mred { am 16 0 8 with b := 0 }, .mcas { am 2 0 1 with c := 51 }, .tlwait ⟨0, 49, 0, 0, 0, false, 0x1008⟩, .tlread ⟨48, 0, 0, 0, 0, false, 0x7000⟩,
      .copyn ⟨48, 49, 50, 51, 0, false, 0x1000⟩, .tlread ⟨48, 0, 0, 0, 0, true, 0⟩, .cnest { xm 1 with d := 0, b := 0 }, .cmode { xm 0 with d := 0, a := 0, b := 0 },
      .czero { xm (32 * 32768) with d := 0, a := 0, b := 0 }, .cdesc { xm (5 * 131072) with c := 51 }, .cdesc { xm (3 * 16384) with c := 51 },
      .cubeMm { xm 0 with a := 32 }, .cplane { xm 0 with b := 8 }, .cdrain { xm 0 with c := 6 }, .crprog { xm (3 * 131072) with a := 0, b := 0 },
      .fst (xm (8 * 2048)), .fatom { xm (2 * 2048 + 7 * 128) with c := 51 }, .pld (xm (3 * 32768)), .precv { xm (4 * 4096) with b := 0 }, .fbar { xm 1 with d := 0 },
      .pstat { xm (3 * 1048576) with b := 0 }, .refine { xm 1 with b := 0 }] : List Instr).all (fun i => !i.wf) = true := by decide


/-! ### Single steps -/

/-- A value of the state an outcome leads to. -/
def after {α : Type} (f : State → α) : Host.Outcome State Fault Refusal → Option α
  | .next t => some (f t)
  | .fault _ | .refused _ => none

/-- A strand on a core, at packet 0 of a page mapped at VA 0, with two operand file entries. -/
def stand (x y : Nat) : State :=
  let s := State.reset.placed 0x6F0000006F0000006F000000
  s.setMe { s.me with files := { s.me.files with o := [(1, BitVec.ofNat 2048 x), (2, BitVec.ofNat 2048 y)] } }

/-- What follows an outcome that is a next state. -/
def andThen (o : Host.Outcome State Fault Refusal) (f : State → Host.Outcome State Fault Refusal) : Host.Outcome State Fault Refusal :=
  match o with
  | .next t => f t
  | x => x

/-- Sources entries 1 and 2, destination entry 0. -/
def sf (u : Bool) : SForm := ⟨48, 49, 50, 0, false, u⟩

/-- Entry 0 of the operand file after an instruction. -/
def entry0 (i : Instr) (s : State) : Option Nat := after (fun t => (t.me.entry 0).toNat) (exec i s)

/-- R107: a division by zero gives all ones, and the remainder the dividend. -/
theorem test_div_zero : entry0 (.div (sf false)) (stand 7 0) = some (2 ^ 64 - 1) ∧ entry0 (.rem (sf true)) (stand 7 0) = some 7 := by decide +kernel
/-- R107: the least `i64` divided by -1 gives itself. -/
theorem test_div_overflow : entry0 (.div (sf false)) (stand (2 ^ 63) (2 ^ 64 - 1)) = some (2 ^ 63)
    ∧ entry0 (.rem (sf false)) (stand (2 ^ 63) (2 ^ 64 - 1)) = some 0 := by decide +kernel
/-- R106: the high half of -1 · -1, signed and unsigned. -/
theorem test_mulh : entry0 (.mulh (sf false)) (stand (2 ^ 64 - 1) (2 ^ 64 - 1)) = some 0
    ∧ entry0 (.mulh (sf true)) (stand (2 ^ 64 - 1) (2 ^ 64 - 1)) = some (2 ^ 64 - 2) := by decide +kernel
/-- R106: a shift takes its count modulo 64. -/
theorem test_shift_count : entry0 (.shl (sf false)) (stand 1 65) = some 2 ∧ entry0 (.sar (sf false)) (stand (2 ^ 63) 63) = some (2 ^ 64 - 1) := by
  decide +kernel
/-- R108: a signed field of one bit. -/
theorem test_bfx_signed : entry0 (.bfx ⟨48, 49, 0, 0, 0, false, 63 * 65536 + 512 + 256⟩) (stand (2 ^ 63) 0) = some (2 ^ 64 - 1) := by decide +kernel
/-- R109: the immediate is sign-extended. -/
theorem test_addi_negative : entry0 (.addi ⟨48, 49, 0, false, 0x3FF⟩) (stand 0 0) = some (2 ^ 64 - 1) := by decide +kernel
/-- R170: a saturating sum of `i8` stops at 127, in its lane only. -/
theorem test_vadd_sat : entry0 (.vadd ⟨48, 49, 50, 0, 0, false, 0, 0, true, 0, 0⟩) (stand 0x0164 0x0132) = some 0x027F := by decide +kernel
/-- R156: 1 + 2 is 3 in `f32`. -/
theorem test_fadd : entry0 (.fadd ⟨48, 49, 50, 0, 0, false, 17, 1, true, false, false, false, 0, 0⟩) (stand 0x3F800000 0x40000000) = some 0x40400000 := by
  decide +kernel
/-- R161: 1 of `f32` narrowed to `e4m3`. -/
theorem test_fcvt : entry0 (.fcvt ⟨48, 49, 60, 0, 0, false, 20, 1, true, false, false, false, 17, 0⟩) (stand 0x3F800000 0) = some 0x38 := by decide +kernel
/-- R109, R104: the entry past the eight bytes is zero, and `ls` takes the result. -/
theorem test_ls : after (fun t => t.me.files.ls) (exec (.movi 48 5) (stand 0 0)) = some 5 := by decide +kernel
/-- R110: `BRC.lt` of a negative source jumps back. -/
theorem test_brc : after (fun t => t.issue.tgt) (exec (.brc ⟨2, 49, 0, 0x3FFF⟩) (stand (2 ^ 63) 0)) = some (some 0xFFFFFFFF) := by decide +kernel
/-- R113: `LOOP` of 1 falls through with 0. -/
theorem test_loop : after (fun t => (t.issue.tgt, (t.me.entry 1).toNat)) (exec (.loop ⟨0, 49, 0, 4⟩) (stand 1 0)) = some (none, 0) := by decide +kernel
/-- R124, R125, R127: `TRAP` enters the handler segment with class 0x0B and its code. -/
theorem test_trap : after (fun t => (t.me.cseg, t.me.pc, bfld t.me.trap.trec 248 8, bfld t.me.trap.trec 232 16, t.me.id.handler)) (exec (.trap 9) (stand 0 0))
    = some (1, 0, 0x0B, 9, true) := by decide +kernel
/-- R45: a view register takes its base. -/
theorem test_view : after (fun t => t.me.views.v) (exec (.view 1 0x300) (stand 0 0)) = some 0x300 := by decide +kernel
/-- R203: a store and then a load of one byte, each performed. -/
theorem test_store_load : after (fun t => (t.me.files.lm, (t.mem.byte 262144).toNat))
    (andThen (andThen (andThen (exec (.stI8 ⟨49, 50, 60, 0, false⟩) (stand 0x1FF 0)) (exec (.accessPerformed 0 1)))
      (exec (.ldI8 ⟨48, 50, 60, 0, false⟩))) (exec (.accessPerformed 0 2))) = some (BitVec.ofNat 2048 (2 ^ 64 - 1), 0xFF) := by decide +kernel
/-- R213: an atomic returns the old value and leaves the sum. -/
theorem test_aadd : after (fun t => ((t.me.entry 0).toNat, t.mem.rd 262208 4))
    (andThen (exec (.aadd ⟨48, 50, 49, 0, 0, false, 2, 3, 0⟩) (stand 5 64)) (exec (.accessPerformed 0 1))) = some (0, 5) := by decide +kernel
/-- A step fetches, decodes and runs the placed word: `ADDI` with d 48, a 60 and 7. -/
theorem test_step : after (fun t => (t.me.files.ls, t.me.wi)) (step (State.reset.withFetchWord 32 0x11878007)) = some (7, 1) := by decide +kernel

/-! ### The hypotheses of the statements are met: states and operands for each clause -/

/-- An operation answers a value in a state. -/
def answers {α : Type} [DecidableEq α] (o : Except Halt (α × State)) (v : α) (t : State) : Bool :=
  match o with
  | .ok (a, u) => decide (a = v) && decide (u = t)
  | .error _ => false

theorem ok_of_answers {α : Type} [DecidableEq α] {o : Except Halt (α × State)} {v : α} {t : State} (h : answers o v t = true) :
    o = .ok (v, t) := by
  unfold answers at h
  split at h
  · simp only [Bool.and_eq_true, decide_eq_true_eq] at h; obtain ⟨rfl, rfl⟩ := h; rfl
  · cases h

/-- An operation answers something. -/
def isOk {α : Type} : Except Halt (α × State) → Bool
  | .ok _ => true
  | .error _ => false

theorem ok_of_isOk {α : Type} {o : Except Halt (α × State)} (h : isOk o = true) : ∃ v t, o = .ok (v, t) := by
  unfold isOk at h
  split at h
  · next x => exact ⟨x.1, x.2, rfl⟩
  · cases h

/-- The value an operation answers. -/
def valueOf {α : Type} : Except Halt (α × State) → Option α
  | .ok x => some x.1
  | .error _ => none

theorem ok_of_valueOf {α : Type} {o : Except Halt (α × State)} {v : α} (h : valueOf o = some v) : ∃ t, o = .ok (v, t) := by
  unfold valueOf at h
  split at h
  · next x => cases h; exact ⟨x.2, rfl⟩
  · cases h

theorem ok_two {α β : Type} {one : Op α} {two : Op β} {s : State} {v : α} {w : β} (h : valueOf (one s) = some v)
    (both : valueOf ((one >>= fun _ => two) s) = some w) : ∃ mid last, one s = .ok (v, mid) ∧ two mid = .ok (w, last) := by
  obtain ⟨mid, first⟩ := ok_of_valueOf h
  obtain ⟨last, run⟩ := ok_of_valueOf both
  exact ⟨mid, last, first, by rwa [Op.bind_run first] at run⟩

/-- `stand` with its strand changed. -/
def standBut (x y : Nat) (f : Strand → Strand) : State := (stand x y).setMe (f (stand x y).me)

theorem dst8_stand (x y lo : Nat) : Dst8 (stand x y) 48 lo (.ofile 0 8) := ⟨rfl, rfl, trivial⟩

theorem dst256_stand (x y lo : Nat) : Dst256 (stand x y) 48 lo (.ofile 0 256) := ⟨rfl, rfl, trivial⟩

/-- A destination in a frame: name 47 of `vw.s`. -/
theorem dst8_frame : Dst8 (stand 5 3) 47 16 (.reg 1 120 8) := 
  ⟨ok_of_answers (by decide +kernel), by decide +kernel, by show 1 < (stand 5 3).me.fr.wsize; decide +kernel⟩

theorem met_ScalarTwoSource : Op.readAB 49 50 (stand 5 3) = .ok ((5, 3), stand 5 3) ∧ Dst8 (stand 5 3) 48 16 (.ofile 0 8) :=
  ⟨ok_of_answers (by decide +kernel), dst8_stand 5 3 16⟩

theorem met_ScalarOneSource : Op.readS 49 10 (stand 5 3) = .ok (5, stand 5 3) ∧ Dst8 (stand 5 3) 47 16 (.reg 1 120 8) ∧ (2 : Spec).toNat < 3 :=
  ⟨ok_of_answers (by decide +kernel), dst8_frame, by decide⟩

theorem met_ScalarImmediate : Op.readS 49 13 (stand 5 3) = .ok (5, stand 5 3) ∧ Dst8 (stand 5 3) 48 19 (.ofile 0 8) :=
  ⟨ok_of_answers (by decide +kernel), dst8_stand 5 3 19⟩

theorem met_ScalarLong : Op.readS 49 10 (stand 5 3) = .ok (5, stand 5 3) ∧ Op.readS 48 16 (stand 5 3) = .ok (0, stand 5 3)
    ∧ Op.readAB 49 50 (stand 5 3) = .ok ((5, 3), stand 5 3) ∧ Op.readS 61 54 (stand 5 3) = .ok (BitVec.allOnes 64, stand 5 3)
    ∧ Dst8 (stand 5 3) 48 16 (.ofile 0 8)
    ∧ 1 ≤ bfld (0#6 ++ 64#7 ++ 0#9 : BitVec 22) 9 7 ∧ bfld (0#6 ++ 64#7 ++ 0#9 : BitVec 22) 16 6 + bfld (0#6 ++ 64#7 ++ 0#9 : BitVec 22) 9 7 ≤ 64 :=
  by and_intros <;> first | decide +kernel | exact ok_of_answers (by decide +kernel) | rfl | trivial

/-- A source at the last eight bytes of the frame, one past them, an operand file entry, and `lx` landed. -/
theorem met_SourceOperands : let s := standBut 5 3 fun t => { t with views := { t.views with s := 64 * 256 - 8 } }
    (s.view.views.s.toNat + 8 * 0 + 8 ≤ s.view.win.f * 256 ∧ s.view.pendsAt (.reg (s.view.unit 63) 248 8) = false
      ∧ s.view.flying s.now (.reg (s.view.unit 63) 248 8) = 0)
    ∧ s.view.win.f * 256 < s.view.views.s.toNat + 8 * 1 + 8
    ∧ (s.view.pendsAt (.ofile 7 256) = false ∧ s.view.flying s.now (.ofile 7 256) = 0) ∧ s.view.files.lxWait = none := by
  decide +kernel

theorem met_Branches : Op.readS 49 16 (stand 5 3) = .ok (5, stand 5 3) ∧ BrcHolds 1 5 ∧ ¬BrcHolds 2 5 ∧ BrcHolds 3 0
    ∧ Op.readV 61 16 (vpack 8 (List.range 256)) (stand 5 3) = .ok (BitVec.allOnes 2048, stand 5 3)
    ∧ BrvHolds 1 (BitVec.allOnes 2048) ∧ ¬BrvHolds 2 (BitVec.allOnes 2048)
    ∧ (Op.readS 48 16 (stand 5 3) = .ok (0, stand 5 3) ∧ Dst8 (stand 5 3) 48 16 (.ofile 0 8) ∧ (0 : W64) ≠ 1)
    ∧ (Op.readS 49 16 (stand 1 3) = .ok (1, stand 1 3) ∧ Dst8 (stand 1 3) 49 16 (.ofile 1 8)) ∧ (Instr.loop ⟨0, 49, 0, 5⟩).wf = true := by
  refine ⟨ok_of_answers (by decide +kernel), ?_, ?_, ?_, ok_of_answers (by decide +kernel), ?_, ?_,
    ⟨ok_of_answers (by decide +kernel), dst8_stand 5 3 16, by decide⟩, ⟨ok_of_answers (by decide +kernel), rfl, rfl, trivial⟩, by decide⟩
  all_goals first | (simp only [BrcHolds]; decide) | (simp only [BrvHolds]; decide +kernel)

theorem met_Calls : (stand 5 3).view.loop.act = false ∧ (stand 5 3).view.rot.size = 0
    ∧ (stand 5 3).view.pendsAt (.reg ((stand 5 3).view.rawUnit ((stand 5 3).view.win.f - 1)) 248 8) = false
    ∧ answers (Op.readS 49 16 (stand 5 3)) 5 (stand 5 3) = true := by
  decide +kernel

/-- Four units, pending. -/
def entering : State := standBut 5 3 fun t => { t with win := { t.win with ep := true, f := 4, hi := 4 } }

/-- A frame of four units at window unit 4, with a link word that names a caller of eight. -/
def returning : State := standBut 5 3 fun t =>
  { t with win := { t.win with base := 4, f := 4, hi := 8 }, regs := [(7, BitVec.ofNat 2048 ((9 + 8 * 2 ^ 32) * 2 ^ 1984))] }

/-- `ENTER` of the least and of the greatest frame, and `RET`. -/
theorem met_Frames :
    (entering.view.loop.act = false ∧ entering.view.win.ep = true ∧ 64 ≤ entering.view.fr.wsize
      ∧ ∃ s1 s2, Op.spills (entering.view.win.base + 64 - entering.view.win.lo - 64) entering.view.win.lo entering = .ok ((), s1)
        ∧ Op.freshUnits (entering.view.win.base + 64 - entering.view.win.hi) entering.view.win.hi s1 = .ok ((), s2))
    ∧ (∃ s1 s2, Op.spills (entering.view.win.base + 4 - entering.view.win.lo - 64) entering.view.win.lo entering = .ok ((), s1)
        ∧ Op.freshUnits (entering.view.win.base + 4 - entering.view.win.hi) entering.view.win.hi s1 = .ok ((), s2))
    ∧ returning.view.loop.act = false ∧ Op.readLoc (.reg (returning.view.unit 3) 248 8) returning = .ok (9 + 8 * 2 ^ 32, returning)
    ∧ 8 ≤ returning.view.fr.wsize ∧ 8 - 4 ≤ returning.view.win.base ∧ returning.view.win.lost = false
    ∧ ∃ s2, Op.refills (min (returning.view.win.lo - 0) 8) 0 returning = .ok (none, s2) :=
  ⟨⟨by decide +kernel, by decide +kernel, by decide +kernel, ok_two (by decide +kernel) (by decide +kernel)⟩,
    ok_two (by decide +kernel) (by decide +kernel), by decide +kernel, ok_of_answers (by decide +kernel), by decide +kernel, by decide +kernel,
    by decide +kernel, ok_of_valueOf (by decide +kernel)⟩

/-- The value a load at issue answers. -/
def loadedOf : Except Halt (Except Nat Nat × State) → Option Nat
  | .ok (.ok v, _) => some v
  | .ok (.error _, _) => none
  | .error _ => none

theorem ok_of_loadedOf {o : Except Halt (Except Nat Nat × State)} {v : Nat} (h : loadedOf o = some v) : ∃ t, o = .ok (.ok v, t) := by
  unfold loadedOf at h
  split at h
  · next t => cases h; exact ⟨t, rfl⟩
  · cases h
  · cases h

/-- A number in memory at VA 64, and the two entries. -/
def holding (x y n v : Nat) : State := { stand x y with mem := ((stand x y).mem.writeN (262144 + 64) n v).1 }

/-- A nest of no base and the same bound at each level. -/
def nest (bound : Nat) : Nat := 1 + 60 * 256 + 60 * 65536 + ((List.range 6).map fun l => bound * 2 ^ (64 * l + 64)).sum

theorem met_LoopNest : let s0 := holding 64 0 64 (nest 0)
    let s1 := holding 64 0 64 (nest 1)
    (s0.view.loop.act = false ∧ Op.readS 49 16 s0 = .ok (64, s0) ∧ Op.hint false 0 [(false, 49)] s0 = .ok ((), s0)
      ∧ (∃ s3, Op.loadNow (lineVa 64) 64 s0 = .ok (.ok (nest 0), s3)) ∧ nestOk (BitVec.ofNat 512 (nest 0)) = true
      ∧ nestReg (bfld (BitVec.ofNat 512 (nest 0)) 8 6) = true ∧ nestReg (bfld (BitVec.ofNat 512 (nest 0)) 16 6) = true
      ∧ nestCount (BitVec.ofNat 512 (nest 0)) = 0)
    ∧ s1.view.loop.act = false ∧ Op.readS 49 16 s1 = .ok (64, s1) ∧ Op.hint false 0 [(false, 49)] s1 = .ok ((), s1)
      ∧ (∃ s3, Op.loadNow (lineVa 64) 64 s1 = .ok (.ok (nest 1), s3)) ∧ nestOk (BitVec.ofNat 512 (nest 1)) = true
      ∧ nestReg (bfld (BitVec.ofNat 512 (nest 1)) 8 6) = true ∧ nestReg (bfld (BitVec.ofNat 512 (nest 1)) 16 6) = true
      ∧ nestCount (BitVec.ofNat 512 (nest 1)) ≠ 0
      ∧ ∀ s4 : State, Op.streamBase (bfld (BitVec.ofNat 512 (nest 1)) 8 6) s4 = .ok (0, s4)
          ∧ Op.streamBase (bfld (BitVec.ofNat 512 (nest 1)) 16 6) s4 = .ok (0, s4) := by
  have g0 : (holding 64 0 64 (nest 0)).view.loop.act = false ∧ (holding 64 0 64 (nest 1)).view.loop.act = false := by decide +kernel
  have d0 : nestOk (BitVec.ofNat 512 (nest 0)) = true ∧ nestReg (bfld (BitVec.ofNat 512 (nest 0)) 8 6) = true
      ∧ nestReg (bfld (BitVec.ofNat 512 (nest 0)) 16 6) = true ∧ nestCount (BitVec.ofNat 512 (nest 0)) = 0 := by decide +kernel
  have d1 : nestOk (BitVec.ofNat 512 (nest 1)) = true ∧ nestReg (bfld (BitVec.ofNat 512 (nest 1)) 8 6) = true
      ∧ nestReg (bfld (BitVec.ofNat 512 (nest 1)) 16 6) = true ∧ nestCount (BitVec.ofNat 512 (nest 1)) ≠ 0 := by decide +kernel
  refine ⟨⟨g0.1, ok_of_answers (by decide +kernel), rfl, ok_of_loadedOf (by decide +kernel), d0⟩, g0.2, ok_of_answers (by decide +kernel), rfl,
    ok_of_loadedOf (by decide +kernel), d1.1, d1.2.1, d1.2.2.1, d1.2.2.2, fun s4 => ?_⟩
  have h1 : bfld (BitVec.ofNat 512 (nest 1)) 8 6 = 60 := by decide +kernel
  have h2 : bfld (BitVec.ofNat 512 (nest 1)) 16 6 = 60 := by decide +kernel
  rw [h1, h2]
  exact ⟨rfl, rfl⟩

/-- A second strand, ready, that no slot holds. -/
def crowded : State := { stand 5 3 with chuck := { (stand 5 3).chuck with ready := [{ sids := [0], bound := false }] } }

theorem met_GivingUpTheSlot : (stand 5 3).yieldsTo (stand 5 3).view = false ∧ (∃ s : State, s.yieldsTo s.view = true)
    ∧ ((stand 5 3).view.loop.act = false ∧ (stand 5 3).view.id.stage ≠ 255 ∧ (stand 5 3).view.trap.pending = [])
    ∧ (standBut 5 3 fun t => { t with id := { t.id with stage := 255 } }).view.id.stage = 255
    ∧ (standBut 5 3 fun t => { t with loop := { t.loop with act := true } }).view.loop.act = true := by
  refine ⟨by decide +kernel, ⟨crowded, by decide +kernel⟩, by decide +kernel⟩

/-- Which way a save ends: written, a page-in, or a frame that cannot be written. -/
def saveEnds : SaveRes → Nat
  | .ok _ => 0
  | .wait _ => 1
  | .fail _ _ => 2

/-- A strand of four units, asked to suspend, its save frame at a VA; page 1 is mapped and not resident, page 2 is not mapped. -/
def stopping (va : W64) (r : StopReq) : State :=
  let s := standBut 5 3 fun t =>
    { t with fr := { t.fr with save := va, wsize := 4, spad := 1 }, win := { t.win with f := 4, hi := 4 }, sch := { t.sch with stop := some r } }
  { s with mem := (s.mem.writeN (196608 + 8) 8 (5 * 65536 + 63)).1 }

/-- The frame is written, waits for its page, or cannot be written; the STAGE save; the frame of a strand with one live block. -/
theorem met_GivingUpTheSlot_save : let r : StopReq := .suspend 1 false
    ([(0, 0), (65536, 1), (131072, 2)] : List (W64 × Nat)).all (fun x => (stopping x.1 r).strand? 0 = some (stopping x.1 r).me
        && saveEnds ((stopping x.1 r).saveStrand 0 (stopping x.1 r).me 1 false) == x.2) = true
    ∧ (stopping 0 r).me.pending = false ∧ (stopping 0 r).me.sch.saving = false ∧ (stopping 0 r).engineBusy 0 = false
    ∧ (stopping 0 r).me.win.lo = (stopping 0 r).me.win.base ∧ (stopping 0 r).me.win.f < 2048 ∧ (stopping 0 r).me.Saves false 3
    ∧ (∀ x ∈ (stopping 0 r).me.saveImage false, (stopping 0 r).isLocal ((0 + x.1) % 2 ^ 64) = true)
    ∧ saveEnds ((stopping 0 .stage).saveStrand 0 (stopping 0 .stage).me 9 false) = 0 ∧ (stopping 0 .stage).me.q.accs = []
    ∧ (stopping 0 .stage).heldIds 0 = [] := by
  simp only [Strand.Saves]
  decide +kernel

/-- A store that stands before the save and none, and a save in a partition that is torn down. -/
theorem met_GivingUpTheSlot_ahead : let s := stopping 0 (.suspend 1 false)
    let busy := s.setMe { s.me with q := { s.me.q with accs := [{ id := 1, q := .store, act := .store [⟨0, 262144, 8, 0⟩] [] 0 }] } }
    let down := s.setPart 0 { s.part 0 with st := 2 }
    busy.strand? 0 = some busy.me ∧ busy.storesAhead 0 busy.me = true ∧ s.storesAhead 0 s.me = false
    ∧ (s.part s.me.id.part).st ≠ 2 ∧ (down.part down.me.id.part).st = 2 ∧ saveEnds (down.saveStrand 0 down.me 1 false) = 0 ∧ down.me.q.accs = [] := by
  decide +kernel

/-- A record suspended, and a pre-emption that meets a `PHINT`. -/
theorem met_GivingUpTheSlot_resume :
    (standBut 5 3 fun t => { t with id := { t.id with state := 3 } }).me.id.state = 3
    ∧ (let s := standBut 5 3 fun t => { t with sch := { t.sch with preempt := true } }
       let u := (s.setMe ((s.me.flow s.issue 1).issued (s.cycle s.core))).tick s.core
       u.me.sch.preempt = true ∧ u.me.sch.stop = none) ∧ isPhint (.phint ⟨48, 49, 50, 0⟩) = true := by
  decide +kernel

/-- A launch node of one strand in a state, with its done word's VA. -/
def launched (st : NState) (done : W64) (x : Strand → Strand) : State :=
  let s := standBut 5 3 fun t => x { t with id := { t.id with launch := 4 } }
  s.setNode 4 { kind := .launch, st := st, mat := 1, lpb := BitVec.ofNat 2048 (2 ^ 32 + done.toNat * 2 ^ 448) }

/-- A node whose strands have triggered, exited, or neither; a release that is the last, one that is not, and one that comes late. -/
theorem met_TriggerAndExit_node :
    let fresh := launched .active 0 id
    let trig := launched .active 0 fun t => { t with id := { t.id with trigDone := true } }
    let gone := launched .triggered 0 fun t => { t with id := { t.id with state := 7 } }
    let both := launched .active 64 fun t => { t with id := { t.id with state := 7 } }
    (fresh.node 4).kind = .launch ∧ fresh.canTrigger 4 = false ∧ trig.canTrigger 4 = true
    ∧ ((trig.setNode 4 { trig.node 4 with st := .triggered }).release (trig.node 4).succ).canComplete 4 = false
    ∧ gone.canComplete 4 = true ∧ (launched .triggered 0 id).canComplete 4 = false
    ∧ (both.canTrigger 4 = true ∧ ((both.setNode 4 { both.node 4 with st := .triggered }).release (both.node 4).succ).canComplete 4 = true)
    ∧ ((launched .created 0 id).node 4).ctr ≠ 1 ∧ (fresh.node 4).st ≠ .created ∧ (fresh.node 4).st ≠ .free := by
  decide +kernel

theorem met_TriggerAndExit : (stand 5 3).view.id.triggered = false ∧ (stand 5 3).view.trap.pending = []
    ∧ (standBut 5 3 fun t => { t with id := { t.id with triggered := true } }).view.id.triggered = true := by
  decide +kernel

/-- The last release of a created node of one gang. -/
theorem met_TriggerAndExit_release : let s := (launched .created 0 id).setNode 4 { (launched .created 0 id).node 4 with ctr := 1 }
    (s.node 4).st = .created ∧ (s.node 4).ctr = 1 ∧ (s.node 4).kind = .launch ∧ bfld (s.node 4).lpb 32 32 ≠ 0 := by
  decide +kernel

/-- Entries in the context store, and a child of priority 0 in stage 0 at packet 5. -/
def spawning : State := { stand 5 (2 ^ 20) with nextSid := 1, chuck := { (stand 5 3).chuck with ctx := 8 } }

theorem met_Spawn : Op.readS 49 16 spawning = .ok (5, spawning) ∧ Op.readS 50 10 spawning = .ok (BitVec.ofNat 64 (2 ^ 20), spawning)
    ∧ Op.hint false 0 [(false, 49), (false, 50)] spawning = .ok ((), spawning)
    ∧ (bfld (5 : W64) 43 21 = 0 ∧ bfld (5 : W64) 40 3 ≤ spawning.view.id.bprio.toNat ∧ spawning.view.id.stage.toNat ≤ bfld (5 : W64) 32 8
      ∧ bfld (BitVec.ofNat 64 (2 ^ 20)) 0 8 = 0)
    ∧ Op.argUnits 4 0 spawning = .ok ([], spawning) ∧ spawning.entriesFor 1 (bfld (5 : W64) 40 3) = true ∧ spawning.strand? spawning.nextSid = none
    ∧ spawning.nextSid ≠ spawning.cur :=
  ⟨ok_of_answers (by decide +kernel), ok_of_answers (by decide +kernel), rfl, by decide +kernel, ok_of_answers (by decide +kernel), by decide +kernel⟩

/-- An operand out of range, and no entry free. -/
theorem met_Spawn_refused : let s := stand 5 1
    ¬bfld (1 : W64) 0 8 = 0 ∧ s.entriesFor 1 (bfld (5 : W64) 40 3) = false ∧ s.view.sch.grant = false := by
  decide +kernel

theorem met_TrapInstruction : let s := stand 5 3
    s.strand? s.cur = some s.me ∧ s.me.id.handler = false ∧ s.me.fr.handler ≠ 0 ∧ s.me.pending = false ∧ s.me.sch.saving = false := by
  decide +kernel

theorem met_HandlerEntry : let m := (stand 5 3).me
    let e : TrapInfo := { cls := 0x04, code := 0 }
    m.id.handler = false ∧ m.fr.handler ≠ 0 ∧ e.cls ≠ 0x09 ∧ e.cls ≠ 0x0F := by
  decide +kernel

/-- A strand in its handler. -/
def handling : State := standBut 5 3 fun t => { t with id := { t.id with handler := true } }

theorem met_ReturnFromTrap : (handling.view.id.handler = true ∧ handling.view.id.standIn = false) ∧ (stand 5 3).view.id.handler = false
    ∧ (standBut 5 3 fun t => { t with id := { t.id with handler := true, standIn := true } }).view.id.standIn = true := by
  decide +kernel

/-- An engine trap that waits. -/
def owed : State := standBut 5 3 fun t =>
  { t with trap := { t.trap with pending := [{ ctx := 4096, seq := 1, info := { cls := 0x0D, code := 1 } }] } }

/-- Flags set and enabled. -/
def flagged : State := standBut 5 3 fun t => { t with fp := { t.fp with flags := 3, trapen := 1 } }

theorem met_TrapFence : ((stand 5 3).view.landed (stand 5 3).now = true ∧ (stand 5 3).view.fp.flags &&& (stand 5 3).view.fp.trapen = 0
      ∧ (stand 5 3).view.trap.pending = [])
    ∧ (flagged.view.landed flagged.now = true ∧ flagged.view.fp.flags &&& flagged.view.fp.trapen ≠ 0)
    ∧ owed.view.landed owed.now = true ∧ owed.view.fp.flags &&& owed.view.fp.trapen = 0 ∧ owed.view.trap.pending ≠ [] := by
  decide +kernel

theorem met_ControlRegisterReads : let s := stand 5 3
    s.view.landed s.now = true ∧ Dst8 s 48 18 (.ofile 0 8) ∧ (0x010, 8 * 0) ∈ csrTable s s.view ∧ (0x021, 0) ∈ csrTable s s.view
    ∧ (⟨48, 0, 0x021⟩ : KForm).csr.toNat = 0x021 :=
  ⟨by decide +kernel, dst8_stand 5 3 18, by decide +kernel⟩

theorem met_ControlRegisterWrites : let s := stand 4 0x100
    (csrOpen 0x020 = true ∧ Op.readS 49 18 s = .ok (4, s) ∧ (csrForms ⟨49, 0, 0x020⟩ (s.csr s.view 0x020) 4).all (fun e => !csrBadValue 0x020 e.2) = true)
    ∧ (csrOpen 0x021 = true ∧ Op.readS 50 18 s = .ok (0x100, s) ∧ s.view.landed s.now = true
      ∧ (csrForms ⟨50, 0, 0x021⟩ (s.csr s.view 0x021) 0x100).any (fun e => csrBadValue 0x021 e.2) = true) :=
  ⟨⟨by decide, ok_of_answers (by decide +kernel), by decide +kernel⟩, by decide, ok_of_answers (by decide +kernel), by decide +kernel⟩

theorem met_LivenessHintAndViews : let s := stand 64 1
    (Op.readS 60 18 s = .ok (0, s) ∧ Op.readS 49 12 s = .ok (64, s) ∧ Op.readS 60 6 s = .ok (0, s) ∧ (0 : W64).toNat < 2 ^ 32
      ∧ (bfld (64 : W64) 0 20 % 64 = 0 ∧ bfld (64 : W64) 20 20 % 64 = 0 ∧ bfld (64 : W64) 40 24 = 0
        ∧ bfld (64 : W64) 0 20 + bfld (64 : W64) 20 20 ≤ s.view.fr.spad * 1024))
    ∧ (Op.readS 50 12 s = .ok (1, s) ∧ ¬bfld (1 : W64) 0 20 % 64 = 0)
    ∧ (Op.readS 61 18 s = .ok (BitVec.allOnes 64, s) ∧ 2 ^ 32 ≤ (BitVec.allOnes 64).toNat ∧ Op.readS 50 6 s = .ok (1, s))
    ∧ (248 : BitVec 18).toNat % 8 = 0 ∧ (512 : BitVec 18).toNat % 256 = 0 ∧ ¬(248 : BitVec 18).toNat % 256 = 0 :=
  ⟨⟨ok_of_answers (by decide +kernel), ok_of_answers (by decide +kernel), ok_of_answers (by decide +kernel), by decide +kernel⟩,
    ⟨ok_of_answers (by decide +kernel), by decide⟩, ⟨ok_of_answers (by decide +kernel), by decide, ok_of_answers (by decide +kernel)⟩, by decide⟩

/-- A region of four units, one of them dead. -/
def rotating : State := standBut 5 3 fun t => { t with rot := { base := 8, size := 4, depth := 2, pos := 1, dead := [3] } }

theorem met_RotatingRegion :
    (Op.readS 49 18 (stand 60 4) = .ok (60, stand 60 4) ∧ Op.readS 50 12 (stand 60 4) = .ok (4, stand 60 4)
      ∧ Op.readS 50 6 (stand 60 4) = .ok (4, stand 60 4) ∧ (60 : W64).toNat + (4 : W64).toNat ≤ (stand 60 4).view.win.f)
    ∧ (stand 60 4).view.rot.size = 0
    ∧ (rotating.view.rot.size = rotating.me.rot.size ∧ 1 ≤ (4 : BitVec 11).toNat ∧ (4 : BitVec 11).toNat ≤ rotating.me.rot.size)
    ∧ rotating.view.rot.size ≠ 0 ∧ rotating.view.rot.size < (5 : BitVec 11).toNat :=
  ⟨⟨ok_of_answers (by decide +kernel), ok_of_answers (by decide +kernel), ok_of_answers (by decide +kernel), by decide +kernel⟩,
    by decide +kernel⟩

/-- `ROTCFG` sources out of range, each in turn. -/
theorem met_RotatingRegion_range : 1024 ≤ (BitVec.allOnes 64).toNat ∧ Op.readS 49 18 (stand 63 4) = .ok (63, stand 63 4)
    ∧ (stand 63 4).view.win.f < (63 : W64).toNat + (4 : W64).toNat ∧ (4 : W64) ≠ 0 :=
  ⟨by decide, ok_of_answers (by decide +kernel), by decide +kernel⟩

theorem met_IdleSynciScratchpad : let s := stand 1016 8
    (∀ a ∈ s.view.q.accs ++ s.me.q.accs, a.q = .load) ∧ Op.readS 49 18 s = .ok (1016, s) ∧ Op.readS 50 12 s = .ok (8, s)
    ∧ (1016 % 8 = 0 ∧ 1016 + 8 ≤ s.view.fr.spad * 1024) :=
  ⟨by decide +kernel, ok_of_answers (by decide +kernel), ok_of_answers (by decide +kernel), by decide +kernel⟩

/-- A range past the allotment, and a store of the strand before `SYNCI`. -/
theorem met_IdleSynciScratchpad_traps : ¬1024 + 8 ≤ (stand 1024 8).view.fr.spad * 1024 ∧ (5 : W64).toNat % 8 ≠ 0
    ∧ ∃ s : State, ∃ a ∈ s.view.q.accs, a.q ≠ .load :=
  ⟨by decide +kernel, by decide, standBut 5 3 fun t => { t with q := { t.q with accs := [{ id := 1, q := .both, act := .mark, pos := {}, wi := 0, word := 0 }] } },
    by decide +kernel⟩

/-! #### Vectors -/

theorem met_VectorIntegerLanes : let s := stand 5 3
    Dst256 s 48 16 (.ofile 0 256) ∧ Op.readV 49 10 (laneVec 8) s = .ok (5, s) ∧ Op.readV 50 4 (laneVec 8) s = .ok (3, s)
    ∧ Op.readV 62 54 (laneVec 32) s = .ok (laneVec 32, s) ∧ tyW (3 : BitVec 5).toNat = 64 ∧ tyW (2 : BitVec 5).toNat = 32 :=
  ⟨dst256_stand 5 3 16, ok_of_answers (by decide +kernel), ok_of_answers (by decide +kernel), ok_of_answers (by decide +kernel), by decide⟩

theorem met_VectorMoves : let s := stand 5 3
    Dst256 s 48 16 (.ofile 0 256) ∧ Dst8 s 48 16 (.ofile 0 8) ∧ Op.readV 49 10 (laneVec 8) s = .ok (5, s) ∧ Op.readV 50 4 (laneVec 8) s = .ok (3, s)
    ∧ Op.readV 61 54 (laneVec 8) s = .ok (BitVec.allOnes 2048, s) ∧ Op.readS 49 10 s = .ok (5, s) ∧ Op.readV 48 16 0 s = .ok (0, s)
    ∧ tyW (0 : BitVec 5).toNat ≠ 0 ∧ (255 : BitVec 8).toNat < 2048 / tyW (0 : BitVec 5).toNat
    ∧ tyW (bfld (1 : BitVec 8) 0 5) = 2 * tyW (0 : BitVec 5).toNat :=
  by and_intros <;> first | decide +kernel | exact ok_of_answers (by decide +kernel) | rfl | trivial

theorem met_VectorFloatLanes : let s := stand 5 3
    Dst256 s 48 16 (.ofile 0 256) ∧ Op.readV 49 10 (laneVec 32) s = .ok (5, s) ∧ Op.readV 50 4 (laneVec 32) s = .ok (3, s)
    ∧ Op.readV 61 54 (laneVec 32) s = .ok (BitVec.allOnes 2048, s) :=
  ⟨dst256_stand 5 3 16, ok_of_answers (by decide +kernel), ok_of_answers (by decide +kernel), ok_of_answers (by decide +kernel)⟩

/-- A narrowing to `e4m3` that reads d, a conversion of codebook codes, one that names no format, and conversions to and from integers. -/
theorem met_VectorConversions : let s := stand 5 3
    Dst256 s 48 16 (.ofile 0 256)
    ∧ (s.resolve 17 = some 17 ∧ s.resolve 20 = some 20 ∧ 17 ∈ tyCvtIn ∧ 20 ∈ tyCvtOut ∧ tyW 20 < tyW 17 ∧ Op.readV 48 16 0 s = .ok (0, s)
      ∧ Op.readV 49 10 (laneVec 32) s = .ok (5, s) ∧ 3 < max (tyW 17 / tyW 20) (tyW 20 / tyW 17))
    ∧ (s.resolve 24 = some 24 ∧ 24 ∈ tyCvtIn ∧ Op.readV 50 4 (laneVec 4) s = .ok (3, s) ∧ ¬tyW 20 < tyW 24 ∧ 1 < max (tyW 24 / tyW 20) (tyW 20 / tyW 24))
    ∧ s.resolve 25 = none ∧ 2 ∈ tyWset ∧ 17 ∈ tyF ∧ ¬tyW 2 < tyW 17 ∧ 0 < max (tyW 17 / tyW 2) (tyW 2 / tyW 17) :=
  ⟨dst256_stand 5 3 16, ⟨by decide +kernel, by decide +kernel, by decide, by decide, by decide, ok_of_answers (by decide +kernel),
      ok_of_answers (by decide +kernel), by decide⟩,
    ⟨by decide +kernel, by decide, ok_of_answers (by decide +kernel), by decide⟩, by decide +kernel⟩

/-- Formats that R161 does not let meet, a LADDER code that resolves to none, and a part index past the parts. -/
theorem met_VectorConversions_traps : (stand 5 3).resolve 25 = none ∧ (stand 5 3).resolve 17 = some 17 ∧ (stand 5 3).resolve 20 = some 20
    ∧ 17 ∈ tyCvtIn ∧ 20 ∈ tyCvtOut ∧ max (tyW 17 / tyW 20) (tyW 20 / tyW 17) ≤ (4 : BitVec 4).toNat := by
  decide +kernel

/-- Operands of the approximation forms: a finite number, and an exact power of two at each end of `f32`. -/
theorem met_VectorFloatLanes_approx : 17 ∈ tyF3 ∧ (3 : Nat) ≠ 0 ∧ 5 < 2 ^ (tyW 17 - 1) ∧ (fmtOf 17).emin - (fmtOf 17).mb ≤ -149
    ∧ (127 : Int) ≤ (fmtOf 17).bias ∧ (∃ n k, unpackBin 17 (frcp false 17 0 (.fin false 1 0)).1 = .fin false n k)
    ∧ ∃ n k, unpackBin 17 (frsq false 17 0 (.fin false 1 0)).1 = .fin false n k :=
  by and_intros <;> first | decide | exact ⟨2 ^ 23, -23, by decide +kernel⟩

/-- A strand bound to a RESIDUAL stage. -/
def residual : State := standBut 5 0x02 fun t => { t with bind := 2 ^ 31 + 2 * 16 }

theorem met_VectorBlocks : let s := stand 1 0x0202
    Dst256 s 48 16 (.ofile 0 256) ∧ Op.readV 49 10 (laneVec 32) s = .ok (1, s) ∧ Op.readV 50 4 (laneVec 32) s = .ok (0x0202, s)
    ∧ Op.readV 48 16 0 s = .ok (0, s) ∧ Op.readV 62 54 (laneVec 32) s = .ok (laneVec 32, s) ∧ (3 : BitVec 4).toNat < 4
    ∧ sdType (el 512 1 0 % 256) = some 0 ∧ sdType (el 512 1 3 % 256) = none
    ∧ (residual.view.bind.getLsbD 31 = true ∧ bfld residual.view.bind 4 2 = 2) ∧ ¬(s.view.bind.getLsbD 31 = true) :=
  by and_intros <;> first | decide +kernel | exact ok_of_answers (by decide +kernel) | rfl | trivial

/-- A subnormal of `f32`, and a code that is not a NaN. -/
theorem met_Rounding : (roundTo {} 17 (.fin false 1 (-149))).2 &&& 4 = 0 ∧ unpackBin 17 1 = .fin false 1 (-149)
    ∧ (unpackVal 0 23 127).isNaN = false ∧ (unpackVal 0 16 0).isNaN = false := by
  decide +kernel


/-! #### Memory -/

/-- The value of an outcome. -/
def got {ε α : Type} : Except ε α → Option α
  | .ok a => some a
  | .error _ => none

/-- What an outcome fails with. -/
def lost {ε α : Type} : Except ε α → Option ε
  | .ok _ => none
  | .error e => some e

theorem ok_with {ε α : Type} {o : Except ε α} (p : α → Bool) (h : (got o).any p = true) : ∃ a, o = .ok a ∧ p a = true := by
  cases o with
  | ok a => exact ⟨a, rfl, h⟩
  | error e => cases h

theorem error_with {ε α : Type} {o : Except ε α} (p : ε → Bool) (h : (lost o).any p = true) : ∃ e, o = .error e ∧ p e = true := by
  cases o with
  | ok a => cases h
  | error e => exact ⟨e, rfl, h⟩

/-- Chuck's PASID with the tables of PASID 0, which map page 1 to frame 5, and a context store of one entry there. -/
def stored : State :=
  let s := stopping 0 (.suspend 1 false)
  { s with mem := { (s.mem.writeN (196608 + 8) 8 (5 * 65536 + 191)).1 with roots := [(Config.ctxPasid, BitVec.ofNat 64 (65536 + 129))] }
           chuck := { s.chuck with ctx := BitVec.ofNat 64 (65536 + 1) } }

theorem met_GivingUpTheSlot_store : let base := bfld stored.chuck.ctx 16 48 * 65536
    base ≠ 0 ∧ ∃ g w, stored.translate Config.ctxPasid ((base + 16384 * (Config.ctxPlace 0 % stored.entries)) % 2 ^ 64) 16384 .write = .ok ([g], w)
      ∧ SegGood w.mem g 16384 := by
  have at_ : (bfld stored.chuck.ctx 16 48 * 65536 + 16384 * (Config.ctxPlace 0 % stored.entries)) % 2 ^ 64 = 65536 := by
    rw [show stored.entries = 1 by decide +kernel, Nat.mod_one]; decide +kernel
  have root : (SMap.get 0 stored.mem.roots Config.ctxPasid).toNat = 65536 + 129 := by
    rw [show stored.mem.roots = [(Config.ctxPasid, BitVec.ofNat 64 (65536 + 129))] from rfl]; simp [SMap.get]
  obtain ⟨d, walk, p⟩ := ok_with (o := stored.mem.walkFrom 65536 .write 3 1 (2 ^ 48 + Config.ctxPasid) (65536 + 129))
    (fun d => d.pa = 5 * 65536 && !(stored.mem.paBusy d.pa 16384) && (linesOf d.pa 16384).all fun l => !(d.mem.lineBad l)) (by decide +kernel)
  simp only [Bool.and_eq_true, decide_eq_true_eq, Bool.not_eq_true', List.all_eq_true] at p
  have find_ : stored.mem.find Config.ctxPasid 65536 .write = .ok { d with mem := d.mem.learn (d.cached Config.ctxPasid 65536) } := by
    unfold Mem.find
    rw [show stored.mem.tlb = [] by decide +kernel]
    simp only [List.find?_nil, Mem.walkLearn, Mem.walk, root, walk]
    rfl
  refine ⟨by decide +kernel, ⟨0, d.pa, 16384, 65536⟩, { stored with mem := (d.mem.learn (d.cached Config.ctxPasid 65536)).hit d.pa 16384 }, ?_, rfl, rfl, ?_⟩
  · rw [at_]
    unfold State.translate
    rw [show stored.parcelAt Config.ctxPasid 65536 16384 = none from rfl, show pieces 65536 16384 = [(0, 65536, 16384)] by decide +kernel]
    simp only [translatePieces, show stored.isLocal 65536 = true by decide +kernel, show stored.mem.frozen Config.ctxPasid 65536 = false by decide +kernel,
      find_, p.1.2]
    rfl
  · intro l h
    have q := p.2 l h
    show (Mem.hit (d.mem.learn _) _ _).lineBad l = false
    unfold Mem.lineBad Mem.hit Mem.learn at *
    split <;> exact q

/-- A translation answers segments and remote runs. -/
theorem transl_with {o : Except Halt ((List Seg × List RSeg) × State)} (p : List Seg → List RSeg → Bool)
    (h : (got o).any (fun x => p x.1.1 x.1.2) = true) : ∃ segs r u, o = .ok ((segs, r), u) ∧ p segs r = true := by
  obtain ⟨⟨⟨a, b⟩, u⟩, h1, h2⟩ := ok_with _ h
  exact ⟨a, b, u, h1, h2⟩

theorem atom_with {o : Except Halt ((List Seg × List RSeg) × State)} (h : (got o).any (fun x => !x.1.1.isEmpty) = true) :
    ∃ g segs r u, o = .ok ((g :: segs, r), u) := by
  obtain ⟨segs, r, u, h1, h2⟩ := transl_with (fun a _ => !a.isEmpty) h
  cases segs with
  | nil => cases h2
  | cons g t => exact ⟨g, t, r, u, h1⟩

/-- The tables of `stand` with another leaf entry. -/
def leafed (e : Nat) : Mem := ((stand 5 3).mem.writeN 196608 8 e).1

/-- A root, a node, and a leaf of 512 MiB at level 2. -/
def huge : Mem := ((({ roots := [(0, 65536 + 129)] } : Mem).writeN 65536 8 (2 * 65536 + 129)).1.writeN 131072 8 (2 ^ 29 + 143)).1

/-- Three nodes and a leaf of 64 KiB, for a write and for a fetch; two nodes and one of 512 MiB. -/
theorem met_PageWalk : let m := (stand 5 3).mem
    let e0 := (SMap.get 0 m.roots 0).toNat
    let p1 := entryAt m (2 ^ 48) e0 0
    let p2 := entryAt m p1 (m.rd p1 8) 0
    let p3 := entryAt m p2 (m.rd p2 8) 0
    (NodeOk m (2 ^ 48) e0 ∧ NodeOk m p1 (m.rd p1 8) ∧ NodeOk m p2 (m.rd p2 8) ∧ LeafOk m (m.rd p3 8) 3 .write ∧ LeafOk m (m.rd p3 8) 3 .fetch)
    ∧ (NodeOk huge (2 ^ 48) (65536 + 129) ∧ NodeOk huge 65536 (huge.rd 65536 8) ∧ LeafOk huge (huge.rd 131072 8) 2 .write)
    ∧ (∀ c ∈ m.tlb, c.covers 0 0 .write = false) := by
  and_intros <;> first | (unfold NodeOk; decide +kernel) | (unfold LeafOk; decide +kernel) | decide +kernel

/-- Leaves not valid, not writable, not executable and not resident, and a root that is not valid. -/
theorem met_PageWalk_faults :
    (SMap.get 0 ({} : Mem).roots 0).toNat.testBit 0 = false ∧ ((leafed 0).rd 196608 8).testBit 0 = false
    ∧ (LeafOk (leafed (4 * 65536 + 139)) ((leafed (4 * 65536 + 139)).rd 196608 8 ||| 4) 3 .write ∧ ((leafed (4 * 65536 + 139)).rd 196608 8).testBit 2 = false)
    ∧ (LeafOk (leafed (4 * 65536 + 135)) ((leafed (4 * 65536 + 135)).rd 196608 8 ||| 8) 3 .fetch ∧ ((leafed (4 * 65536 + 135)).rd 196608 8).testBit 3 = false)
    ∧ LeafOk (leafed (4 * 65536 + 15)) ((leafed (4 * 65536 + 15)).rd 196608 8 ||| 128) 3 .read ∧ ((leafed (4 * 65536 + 15)).rd 196608 8).testBit 7 = false := by
  and_intros <;> first | (unfold LeafOk; decide +kernel) | decide +kernel

/-- A lease of the page at VA 0 that covers writes. -/
def leased : State := standBut 5 3 fun t => { t with q := { t.q with leases := [⟨0, 262144, 16, true⟩] } }

/-- A parcel's extent in the first page. -/
def posted : State := { stand 5 3 with slots := [(3, { st := 2, base := 0, size := 4096 })] }

theorem met_Translation : let s := stand 5 3
    (s.parcelAt 0 0 65536 = none ∧ s.isLocal 0 = true ∧ s.mem.frozen 0 0 = false ∧ (s.me.q.leases.find? fun l => l.covers 0 .write) = none
      ∧ ∃ d, s.mem.find 0 0 .write = .ok d ∧ (!s.mem.paBusy d.pa 1) = true)
    ∧ s.isLocal (2 ^ 53) = false ∧ s.parcelAt 0 (2 ^ 53) 1 = none
    ∧ (leased.parcelAt 0 65535 1 = none ∧ leased.mem.frozen 0 65535 = false
      ∧ (leased.me.q.leases.find? fun l => l.covers 65535 .write) = some ⟨0, 262144, 16, true⟩ ∧ leased.mem.paBusy (262144 + 65535) 1 = false)
    ∧ (∃ f, (leafed 0).find 0 0 .read = .error f ∧ (decide (f.code ≠ 0 ∧ f.code ≠ 7 ∧ f.code ≠ 9)) = true)
    ∧ (∃ f, (leafed (4 * 65536 + 15)).find 0 0 .read = .error f ∧ (decide (f.code = 9)) = true)
    ∧ posted.parcelAt 0 4095 1 = some 3 :=
  ⟨⟨by decide +kernel, by decide +kernel, by decide +kernel, by decide +kernel, ok_with _ (by decide +kernel)⟩, by decide +kernel, by decide +kernel,
    by decide +kernel, error_with _ (by decide +kernel), error_with _ (by decide +kernel), by decide +kernel⟩

theorem met_Loads : let s := stand 64 8
    let top := stand (1016) 8
    let far := stand (2 ^ 53) 1
    (Op.readAB 49 50 s = .ok ((64, 8), s) ∧ Dst8 s 48 16 (.ofile 0 8) ∧ Dst256 s 48 16 (.ofile 0 256) ∧ s.isLocal (64 + 8) = true
      ∧ (∃ segs r u, Op.transl (64 + 8) 8 .read 0 s = .ok ((segs, r), u) ∧ (!segs.isEmpty) = true)
      ∧ (∃ segs r u, Op.transl (64 + 8) 256 .read 0 s = .ok ((segs, r), u) ∧ (!segs.isEmpty) = true)
      ∧ ∃ segs r u, Op.transl (64 + 8) 1 .read 4 s = .ok ((segs, r), u) ∧ (!segs.isEmpty) = true)
    ∧ (Op.readAB 49 60 top = .ok ((BitVec.ofNat 64 (1016), 0), top) ∧ 1016 + 8 ≤ top.view.fr.spad * 1024
      ∧ ({ top with parts := [(0, { spMode := true })] } : State).part 0 = { spMode := true })
    ∧ SpadReady { top with parts := [(0, { spMode := true })] } (1016) 8
    ∧ SpadReady (standBut 0 0 fun t => { t with scr := [(0, { valid := true })] }) 0 8
    ∧ top.view.fr.spad * 1024 < 1016 + 8 + 8
    ∧ (Op.readAB 49 60 far = .ok ((BitVec.ofNat 64 (2 ^ 53), 0), far) ∧ far.isLocal (2 ^ 53) = false)
    ∧ GsReads ⟨48, 49, 50, 60, 0, false, 3, 0, 0⟩ s (indexed ⟨48, 49, 50, 60, 0, false, 3, 0, 0⟩ 64 8 (BitVec.allOnes 2048))
    ∧ ((indexed ⟨48, 49, 50, 60, 0, false, 3, 0, 0⟩ 64 8 (BitVec.allOnes 2048)).all fun e => s.isLocal e.2.toNat) = true
    ∧ (∃ segs r u, Op.gsTransl (tyW 3) .read 0 (indexed ⟨48, 49, 50, 60, 0, false, 3, 0, 0⟩ 64 8 (BitVec.allOnes 2048)) s = .ok ((segs, r), u)
        ∧ (!segs.isEmpty) = true)
    ∧ GsReads ⟨48, 49, 50, 60, 0, false, 3, 0, 0⟩ far (indexed ⟨48, 49, 50, 60, 0, false, 3, 0, 0⟩ (BitVec.ofNat 64 (2 ^ 53)) 1 (BitVec.allOnes 2048))
    ∧ ((indexed ⟨48, 49, 50, 60, 0, false, 3, 0, 0⟩ (BitVec.ofNat 64 (2 ^ 53)) 1 (BitVec.allOnes 2048)).find? fun e => !(far.isLocal e.2.toNat))
        = some (0, BitVec.ofNat 64 (2 ^ 53 + 1)) := by
  refine ⟨⟨ok_of_answers (by decide +kernel), dst8_stand _ _ _, dst256_stand _ _ _, by decide +kernel, transl_with (fun a _ => !a.isEmpty) (by decide +kernel),
      transl_with (fun a _ => !a.isEmpty) (by decide +kernel), transl_with (fun a _ => !a.isEmpty) (by decide +kernel)⟩,
    ⟨ok_of_answers (by decide +kernel), by decide +kernel⟩, .inl (by decide +kernel), .inr ⟨by decide +kernel, fun a h => ?_⟩,
    by decide +kernel, ⟨ok_of_answers (by decide +kernel), by decide +kernel⟩, ⟨64, 8, 0, _, _, _, ok_of_answers (t := stand 64 8) (by decide +kernel),
      ok_of_answers (t := stand 64 8) (by decide +kernel), ⟨rfl, rfl⟩, rfl⟩, by decide +kernel, transl_with (fun a _ => !a.isEmpty) (by decide +kernel),
    ⟨_, 1, 0, _, _, _, ok_of_answers (t := stand (2 ^ 53) 1) (by decide +kernel), ok_of_answers (t := stand (2 ^ 53) 1) (by decide +kernel), ⟨rfl, rfl⟩, rfl⟩,
    by decide +kernel⟩
  have he : (standBut 0 0 fun t => { t with scr := [(0, { valid := true })] }).me.q.accs = [] := by decide +kernel
  rw [he] at h
  cases h

theorem met_Stores : let s := stand 64 8
    let top := stand (1016) 8
    (Op.readS 50 16 s = .ok (8, s) ∧ Op.readAB 49 50 s = .ok ((64, 8), s)
      ∧ (∃ segs r u, Op.transl (64 + 8) 8 .write 1 s = .ok ((segs, r), u) ∧ (!segs.isEmpty) = true)
      ∧ (∃ segs r u, Op.transl (64 + 8) 256 .write 1 s = .ok ((segs, r), u) ∧ (!segs.isEmpty) = true)
      ∧ Op.readData 50 s = .ok (8, s) ∧ (64 + 8 : W64).toNat + 256 ≤ s.view.fr.spad * 1024 ∧ Op.readV 50 16 (laneVec (tyW 3)) s = .ok (8, s))
    ∧ (Op.readAB 49 50 top = .ok ((BitVec.ofNat 64 (1016), 8), top) ∧ top.view.fr.spad * 1024 < (BitVec.ofNat 64 (1016) + 8).toNat + 1)
    ∧ GsReads ⟨48, 49, 50, 60, 0, false, 3, 0, 0⟩ s (indexed ⟨48, 49, 50, 60, 0, false, 3, 0, 0⟩ 64 8 (BitVec.allOnes 2048))
    ∧ ∃ segs r u, Op.gsTransl (tyW 3) .write 1 (indexed ⟨48, 49, 50, 60, 0, false, 3, 0, 0⟩ 64 8 (BitVec.allOnes 2048)) s = .ok ((segs, r), u)
        ∧ (!segs.isEmpty) = true :=
  ⟨⟨ok_of_answers (by decide +kernel), ok_of_answers (by decide +kernel), transl_with (fun a _ => !a.isEmpty) (by decide +kernel),
      transl_with (fun a _ => !a.isEmpty) (by decide +kernel), ok_of_answers (by decide +kernel), by decide +kernel, ok_of_answers (by decide +kernel)⟩,
    ⟨ok_of_answers (by decide +kernel), by decide +kernel⟩,
    ⟨64, 8, 0, _, _, _, ok_of_answers (t := stand 64 8) (by decide +kernel), ok_of_answers (t := stand 64 8) (by decide +kernel), ⟨rfl, rfl⟩, rfl⟩,
    transl_with (fun a _ => !a.isEmpty) (by decide +kernel)⟩

/-- An aligned local address, a misaligned one, and a remote one with and without RET. -/
theorem met_AtomicsQueue : let s := stand 64 8
    let far := stand (2 ^ 53) 1
    (Op.readS 49 10 s = .ok (64, s) ∧ Op.readS 50 4 s = .ok (8, s) ∧ Op.readS 61 54 s = .ok (BitVec.allOnes 64, s) ∧ Dst8 s 48 16 (.ofile 0 8)
      ∧ Dst256 s 48 16 (.ofile 0 256) ∧ (64 : W64).toNat % (tyW 3 / 8) = 0 ∧ s.isLocal 64 = true
      ∧ (∃ g segs r u, Op.transl 64 8 .write 2 s = .ok ((g :: segs, r), u)) ∧ Op.readV 50 16 (laneVec 64) s = .ok (8, s)
      ∧ Op.readV 50 4 (laneVec 64) s = .ok (8, s) ∧ Op.readV 61 54 (laneVec 64) s = .ok (BitVec.allOnes 2048, s)
      ∧ ∃ g segs r u, Op.transl 64 64 .write 2 s = .ok ((g :: segs, r), u))
    ∧ (Op.readS 50 10 s = .ok (8, s) ∧ (8 : W64).toNat % 64 ≠ 0) ∧ (Op.readS 50 10 far = .ok (1, far) ∧ (1 : W64).toNat % (tyW 3 / 8) ≠ 0)
    ∧ (Op.readS 49 10 far = .ok (BitVec.ofNat 64 (2 ^ 53), far) ∧ (BitVec.ofNat 64 (2 ^ 53)).toNat % 64 = 0 ∧ far.isLocal (BitVec.ofNat 64 (2 ^ 53)).toNat = false
      ∧ (4 : BitVec 4).getLsbD 2 = true ∧ (8 : BitVec 4).getLsbD 2 = false) :=
  by and_intros <;> first | decide +kernel | exact ok_of_answers (by decide +kernel) | exact atom_with (by decide +kernel) | rfl | trivial

/-- A strand with one queued access. -/
def queued (a : Act) (q : QKind) (dst : Option RDst) : State :=
  standBut 5 3 fun t => { t with q := { t.q with next := 2, accs := [{ id := 1, q := q, act := a, dst := dst }], waitf := some 0 } }

/-- A load of eight bytes at VA 0. -/
def loading : State := queued (.load [⟨0, 262144, 8, 0⟩] true 64) .load (some { loc := .ofile 0 8 })

theorem met_MarkersAndFences : (stand 5 3).tokenDone (stand 5 3).cur (stand 5 3).view 7 = true ∧ Dst8 (stand 5 3) 48 16 (.ofile 0 8)
    ∧ loading.strand? 0 = some loading.me ∧ loading.me.q.waitf = some 0 ∧ loading.tokenDone 0 loading.me 0 = true :=
  ⟨by decide +kernel, dst8_stand _ _ _, by decide +kernel⟩

/-- A load with nothing before it, one behind another, and one that passes a load of another line. -/
theorem met_AccessPerforms : let g : Seg := ⟨0, 262144, 8, 0⟩
    let a : Access := { id := 1, q := .load, act := .load [g] true 64, dst := some { loc := .ofile 0 8 } }
    let b : Access := { id := 2, q := .both, act := .mark }
    let c : Access := { id := 2, q := .load, act := .load [{ g with pa := 262208, va := 64 }] true 64 }
    (loading.strand? 0 = some loading.me ∧ accSplit a.id loading.me.q.accs = some ([], a) ∧ (∀ g ∈ a.act.segs, loading.mem.paBusy g.pa g.len = false)
      ∧ loading.holdFull loading.me.id.part a.act.homes = false ∧ a.waitsHeld = false ∧ a.rel = false)
    ∧ (accSplit 2 [a, b] = some ([a], b) ∧ (∃ c ∈ [a], b.q = .both ∨ c.q = b.q ∨ c.q = .both) ∧ b.passes [a] = false)
    ∧ (accSplit 2 [a, c] = some ([a], c) ∧ c.passes [a] = true) := by
  decide +kernel

/-- A page at VA 0 whose first line fails its check. -/
def failing (s : State) : State := { s with mem := { s.mem with bad := [4096] } }

/-- A load, an atomic and a store of whole and of part lines; a status area that no write meets. -/
theorem met_AccessEffects : let g : Seg := ⟨0, 262144, 8, 0⟩
    let h : Seg := ⟨0, 262144, 64, 0⟩
    loading.strand? 0 = some loading.me ∧ loading.mem.badVa [g] = none ∧ (64 : Nat) ≤ 64
    ∧ (∀ l, l ∈ linesOf g.pa g.len → loading.mem.lineBad l = false) ∧ g.len = tyW 3 / 8
    ∧ (h.pa % 64 = 0 ∧ h.len = 64 ∧ loading.mem.lineBad (h.pa / 64) = false)
    ∧ loading.statusHits ([g].map fun x => (x.pa, x.len)) = [] ∧ loading.statusHits [(h.pa, 64)] = []
    ∧ ((failing loading).mem.badVa [g]).isSome = true ∧ (failing loading).mem.lineBad (g.pa / 64) = true := by
  decide +kernel

/-- Scratchpad words valid and not valid, and a line of it that fails its check, written whole and in part. -/
theorem met_AccessEffects_scratchpad : let x := (standBut 0 0 fun t => { t with scr := [(0, { valid := true })], scrBad := [1] }).me
    (x.spadBad 0 8 = none ∧ (x.sword 0).valid = true) ∧ (x.spadBad 8 8 = none ∧ (x.sword 1).valid = false) ∧ x.spadBad 64 8 = some 1
    ∧ ((∀ l, l ∈ linesOf 64 64 → l ∉ x.scrBad ∨ coversLine 64 64 l = true) ∧ ∀ l, l ∈ linesOf 64 8 → l ∈ x.scrBad → coversLine 64 8 l = false)
    ∧ (8 % 8 = 0 ∧ 16 % 8 = 0) := by
  decide +kernel


/-! #### Timelines, copies, the cube -/

/-- A partition that owns everything. -/
def owner : Part :=
  { st := 1, halves := BitVec.allOnes 64, nodeN := 65536, cube := true, fab := BitVec.allOnes 64, rlc := BitVec.allOnes 16, area := BitVec.allOnes 64,
    ual := BitVec.allOnes 16, spn := BitVec.allOnes 8, pcN := 16 }

/-- `stand` in a partition that owns everything. -/
def owning (x y : Nat) : State := { stand x y with parts := [(0, owner)] }

/-- `owning` with its strand changed. -/
def owningBut (x y : Nat) (f : Strand → Strand) : State := (owning x y).setMe (f (owning x y).me)

/-- A number in memory at VA 64 under `owning`. -/
def ownHolding (x y n v : Nat) : State := { owning x y with mem := (holding x y n v).mem }

theorem met_Timelines : let s := owning 5 0
    let due := owningBut 5 0 fun t => { t with trap := { t.trap with pending := [{ ctx := 4096, seq := 5, info := { cls := 0x0D, code := 1 } }] } }
    (Op.readS 49 10 s = .ok (5, s) ∧ s.ctxOwn s.view.id.part 4096 = true ∧ s.view.trap.pending = [] ∧ (s.ctx 4096).counter.toNat < 5
      ∧ s.view.sch.waitDone = false ∧ Dst8 s 48 16 (.ofile 0 8))
    ∧ ({ s with ctxs := [(4096, { counter := 5 })] } : State).ctx 4096 = { counter := 5 }
    ∧ (stand 5 0).ctxOwn (stand 5 0).view.id.part 4096 = false
    ∧ ((due.view.trap.pending.find? fun e => e.ctx = 4096 && decide (e.seq ≤ 5)).isSome = true)
    ∧ (s.ctx 0).counter.toNat + (s.ctx 0).done.length + 1 < 2 ^ 64 ∧ (s.ctx 0).err.getLsbD 7 = false
    ∧ ((({ s with ctxs := [(0, { err := 128 })] } : State).ctx 0).err.getLsbD 7) = true :=
  ⟨⟨ok_of_answers (by decide +kernel), by decide +kernel, by decide +kernel, by decide +kernel, by decide +kernel, rfl, rfl, trivial⟩, by decide +kernel⟩

/-- A copy command that may start, one that waits for a page, and one whose writes were made. -/
def copying (stalled sent : Bool) : State :=
  { owning 64 8 with copies := [{ ctx := 0, seq := 1, iss := .node 0, gate := none, pasid := 0, nest := 0, src := 0, dst := 0, ctl := 0, units := [],
                                  stalled := stalled, sent := sent }] }

theorem met_Copies : let good := ownHolding 64 8 64 (nest 1)
    let bad := ownHolding 64 8 64 2
    (Op.readS 49 10 good = .ok (64, good) ∧ good.ctxOwn good.view.id.part 0 = true
      ∧ (∃ u, Op.loadNow (BitVec.ofNat 64 ((64 : W64).toNat / 64 * 64)) 64 good = .ok (.ok (nest 1), u)) ∧ nestOk (BitVec.ofNat 512 (nest 1)) = true)
    ∧ (Op.readS 49 10 bad = .ok (64, bad) ∧ (∃ u, Op.loadNow (BitVec.ofNat 64 ((64 : W64).toNat / 64 * 64)) 64 bad = .ok (.ok 2, u))
      ∧ nestOk (BitVec.ofNat 512 2) = false)
    ∧ (Op.readAB 49 50 good = .ok ((64, 8), good) ∧ Op.readS 60 54 good = .ok (0, good) ∧ Dst8 good 48 16 (.ofile 0 8) ∧ good.copiesOf 0 < 64
      ∧ ¬(bfld (0 : W64) 4 2 = 2) ∧ good.view.pending = false ∧ good.view.landed good.now = true)
    ∧ (Op.readS 61 54 good = .ok (BitVec.allOnes 64, good) ∧ (BitVec.allOnes 64).toNat / 256 ≠ 0)
    ∧ (∀ c ∈ good.copies, ¬(c.ctx = 0 ∧ c.seq = 1))
    ∧ (((copying false false).copies.find? fun c => c.ctx = 0 && c.seq = 1).isSome = true ∧ (copying false false).mayStart (.node 0) none = true)
    ∧ ((copying true false).copies.all fun c => c.stalled) = true ∧ ((copying false true).copies.all fun c => c.sent) = true
    ∧ (∀ o ∈ (copying false true).fab.outs, o.org ≠ .cmd 0 1)
    ∧ (∃ o ∈ ({ copying false true with fab := { outs := [{ tag := 0, org := .cmd 0 1, part := 0, pkts := [] }] } } : State).fab.outs, o.org = .cmd 0 1)
    ∧ (∀ l, l ∈ linesOf 64 8 → good.mem.lineBad l = false) ∧ ∀ i, i < 8 → overlaps [] 0 (64 + i) = false :=
  ⟨⟨ok_of_answers (by decide +kernel), by decide +kernel, ok_of_loadedOf (by decide +kernel), by decide +kernel⟩,
    ⟨ok_of_answers (by decide +kernel), ok_of_loadedOf (by decide +kernel), by decide +kernel⟩,
    ⟨ok_of_answers (by decide +kernel), ok_of_answers (by decide +kernel), ⟨rfl, rfl, trivial⟩, by decide +kernel⟩,
    ⟨ok_of_answers (by decide +kernel), by decide⟩, by decide +kernel⟩

/-- The page at VA 0 as the MTU has cached it. -/
def cached (s : State) : State :=
  match s.mem.walkLearn 0 0 .write with
  | .ok d => { s with mem := d.mem }
  | .error _ => s

/-- A walk ends at an address and leaves the memory as it is. -/
def lands_ (o : Except WFault WDone) (pa : Nat) (m : Mem) : Bool :=
  match o with
  | .ok d => decide (d.pa = pa ∧ d.mem = m)
  | .error _ => false

theorem reaches_of {s : State} {pasid va n pa : Nat} {kind : WKind} (h : s.parcelAt pasid va n = none ∧ pieces va n = [(0, va, n)] ∧ s.isLocal va = true
    ∧ s.mem.frozen pasid va = false ∧ s.mem.paBusy pa n = false) (f : lands_ (s.mem.find pasid va kind) pa s.mem = true) :
    Reaches s pasid va n kind pa := by
  obtain ⟨a, b, c, d, e⟩ := h
  refine ⟨a, b, c, d, e, ?_⟩
  cases g : s.mem.find pasid va kind with
  | ok w => rw [g] at f; exact ⟨w, rfl, of_decide_eq_true f⟩
  | error w => rw [g] at f; cases f

/-- A copy of eight bytes from VA 0 to VA 64, and a piece that fails its check, of memory and of the scratchpad. -/
theorem met_Copies_run : let s := cached (owning 64 8)
    (nestCount (BitVec.ofNat 512 (nest 1)) = 1 ∧ (∀ e ∈ s.rlcs, e.2.queue = []) ∧ 64 % 64 + 2 ^ 3 ≤ 64
      ∧ (∀ l, l ∈ linesOf 262144 8 ++ linesOf 262208 8 → s.mem.lineBad l = false) ∧ 262208 + 8 ≥ 262144 + 8)
    ∧ (failing s).mem.lineBad (262144 / 64) = true ∧ (8 : Nat) < 64
    ∧ Reaches s 0 0 8 .read 262144 ∧ Reaches s 0 64 8 .write 262208 :=
  ⟨by decide +kernel, by decide +kernel, by decide, reaches_of (by decide +kernel) (by decide +kernel), reaches_of (by decide +kernel) (by decide +kernel)⟩

/-- A command of the cube on layer 0, in slot 3. -/
def cubeCmd (kind : CubeKind) (st : Nat) (sent : Bool) : CubeCmd :=
  { ctx := 0, seq := 1, iss := .node 0, gate := none, pasid := 0, kind := kind, slot := 3, nest := BitVec.ofNat 512 (nest 1), st := st, sent := sent }

/-- `owning` with one cube command. -/
def cubing (c : CubeCmd) : State := { owning 64 8 with cube := { cmds := [c] } }

/-- A matrix multiply of one element on layer 0. -/
def oneMm : CubeKind := .mm [0] false false 8 1 1 1

theorem met_CubeSetup : let good := ownHolding 64 8 64 (nest 1)
    let bad := ownHolding 64 8 64 2
    (Op.readS 49 10 good = .ok (64, good) ∧ (∃ u, Op.loadNow (BitVec.ofNat 64 ((64 : W64).toNat / 64 * 64)) 64 good = .ok (.ok (nest 1), u))
      ∧ nestOk (BitVec.ofNat 512 (nest 1)) = true)
    ∧ (Op.readS 49 10 bad = .ok (64, bad) ∧ (∃ u, Op.loadNow (BitVec.ofNat 64 ((64 : W64).toNat / 64 * 64)) 64 bad = .ok (.ok 2, u))
      ∧ nestOk (BitVec.ofNat 512 2) = false)
    ∧ (Op.readS 60 16 good = .ok (0, good) ∧ Op.readS 49 10 good = .ok (64, good) ∧ Op.readS 49 4 good = .ok (64, good) ∧ Op.readS 60 54 good = .ok (0, good)
      ∧ (64 : W64).toNat % 64 = 0 ∧ (64 : W64).toNat < 0x380000)
    ∧ (Op.readS 50 10 good = .ok (8, good) ∧ (8 : W64).toNat % 64 ≠ 0)
    ∧ (∀ c ∈ good.cube.cmds, ∀ l ∈ c.layers, good.planeOf l = true)
    ∧ (∃ c ∈ (cubing (cubeCmd oneMm 1 false)).cube.cmds, ∃ l ∈ c.layers, (cubing (cubeCmd oneMm 1 false)).planeOf l ≠ true)
    ∧ good.slotHere 31 = true ∧ good.slotHere 0x7F = true ∧ ({ good with cube := { layers := 0 } } : State).slotHere 0 = false ∧ good.cube.cmds = []
    ∧ ((∀ c ∈ (cubing (cubeCmd oneMm 1 false)).cube.cmds, c.seq ≠ 0) ∧ ∃ c ∈ (cubing (cubeCmd oneMm 1 false)).cube.cmds, c.slotUse = some 3 ∧ c.sent = false)
    ∧ (64 : W64).toNat % 32 = 0 ∧ (8 : W64).toNat % 32 ≠ 0 ∧ ∃ u, Op.loadNow 64 32 good = .ok (.ok (nest 1 % 2 ^ 256), u) :=
  by and_intros <;> first | decide +kernel | exact ok_of_answers (by decide +kernel) | exact ok_of_loadedOf (by decide +kernel)

/-- `owning` with a nest and descriptors of faces, PLAIN `i8` each: A at `base`, B at 0. -/
def matrices (sd : Bool) (base : Nat) : State := owningBut 64 8 fun t =>
  { t with shNest := BitVec.ofNat 512 (nest 1), shA := BitVec.ofNat 256 ((if sd then 2 ^ 13 else 0) + 2 ^ 15 + base * 2 ^ 128),
           shB := BitVec.ofNat 256 ((if sd then 2 ^ 13 else 0) + 2 ^ 15) }

theorem met_CubeCommands : let s := matrices false 0
    let d : BitVec 256 := BitVec.ofNat 256 (2 ^ 15)
    ((stand 5 3).view.shNest = 0 ∧ nestOk 0 = false)
    ∧ (nestOk s.view.shNest = true ∧ Op.resolveDesc s.view.shA s = .ok (d, s) ∧ Op.resolveDesc s.view.shB s = .ok (d, s)
      ∧ ((List.range s.nl).filter fun x => Nat.testBit 1 x) = [0] ∧ s.planeOf 0 = false ∧ opWidth (dType d) = 8
      ∧ (∀ j < 2, ∀ x < 6, nestStride s.view.shNest j x * 2 ^ nestScale s.view.shNest j % 64 = 0)
      ∧ faceBadRange s.view.shNest 0 d 128 1 64 = false ∧ faceBadRange s.view.shNest 1 d 128 1 64 = false ∧ Dst8 s 48 16 (.ofile 0 8)
      ∧ (s.cube.cmds.filter fun x => x.ctx = 7 && x.seq ≠ 0).length < 64)
    ∧ ((List.range s.nl).filter fun x => Nat.testBit 256 x) = []
    ∧ (dLayout (matrices true 0).view.shA = 1 ∧ dLayout (matrices true 0).view.shB = 1 ∧ ¬(opWidth (dType d) = 4))
    ∧ (faceBadRange s.view.shNest 0 (matrices false 0x380000).view.shA 1 1 1 = true ∧ opWidth (dType (matrices false 0x380000).view.shA) = 8)
    ∧ (({ s with cube := { mode := 1 } } : State).planeOf 0 = true ∧ s.nl ≤ 8)
    ∧ (Op.readAB 49 50 s = .ok ((64, 8), s) ∧ Op.readAB 49 60 s = .ok ((64, 0), s) ∧ Op.readAB 50 60 s = .ok ((8, 0), s) ∧ Op.readS 49 54 s = .ok (64, s)
      ∧ 0 < s.nl ∧ (64 : W64).toNat % 64 = 0 ∧ (8 : W64).toNat % 64 ≠ 0 ∧ (0 : W64).toNat + (64 : W64).toNat ≤ 0x380000)
    ∧ (Op.readAB 61 60 s = .ok ((BitVec.allOnes 64, 0), s) ∧ (BitVec.allOnes 64).toNat % 4 ≠ 0) ∧ s.slotHere 31 = true
    ∧ ({ s with cube := { layers := 0 } } : State).slotHere 31 = false ∧ ({ s with cube := { layers := 0 } } : State).nl ≤ 0 :=
  by and_intros <;> first | decide +kernel | exact ok_of_answers (by decide +kernel) | rfl | trivial

/-- How a run of the cube ends: 0 done, 1 stopped, 2 waits, 3 held. -/
def runKind : RunEnd → Nat
  | .done _ _ => 0
  | .stopped _ _ => 1
  | .waits _ _ _ => 2
  | .held _ _ => 3

/-- Both operands in memory at a VA. -/
def memMm (va : Nat) : CubeCmd := { cubeCmd oneMm 1 false with dA := BitVec.ofNat 256 (va * 2 ^ 128), dB := BitVec.ofNat 256 (va * 2 ^ 128) }

/-- A run that completes, one that stops at a VA with no page, and one that waits for a page not resident. -/
theorem met_CubeRuns : let free (s : State) : State := { s with free := s.free + 1 }
    let away : State := { cubing (memMm 0) with mem := leafed (4 * 65536 + 15) }
    ((owning 64 8).cubeNext 0 = none)
    ∧ ((cubing (memMm 0)).cubeNext 0 = some (memMm 0) ∧ runKind (State.cubeRun [0] 8 1 1 1 ((memMm 0).left 1 1) none (memMm 0) (cubing (memMm 0))) = 0)
    ∧ ((cubing (memMm 65536)).cubeNext 0 = some (memMm 65536)
      ∧ runKind (State.cubeRun [0] 8 1 1 1 ((memMm 65536).left 1 1) none (memMm 65536) (free (cubing (memMm 65536)))) = 1)
    ∧ (away.cubeNext 0 = some (memMm 0) ∧ runKind (State.cubeRun [0] 8 1 1 1 ((memMm 0).left 1 1) none (memMm 0) (free away)) = 2)
    ∧ (cubing (cubeCmd (.fill 0 0 64 false 0) 1 false)).cubeNext 0 = some (cubeCmd (.fill 0 0 64 false 0) 1 false)
    ∧ (cubing (cubeCmd (.drain 0 4 0 false 1 1 []) 1 true)).cubeNext 0 = some (cubeCmd (.drain 0 4 0 false 1 1 []) 1 true)
    ∧ (∀ o ∈ (cubing (cubeCmd (.drain 0 4 0 false 1 1 []) 1 true)).fab.outs, o.org ≠ .cmd 4096 1)
    ∧ ((memMm 0).isInt = true ∧ dLayout (memMm 0).dA = 0 ∧ dLayout (memMm 0).dB = 0 ∧ 8 = opWidth (dType (memMm 0).dA))
    ∧ ((stand 5 3).strand? 0 = some (stand 5 3).me ∧ (stand 5 3).me.id.state ≠ 7)
    ∧ ((owning 64 8).cubeHalted 0 = none ∧ (cubing (cubeCmd oneMm 2 false)).cubeHalted 0 = some (cubeCmd oneMm 2 false))
    ∧ Dst8 (owning 64 8) 48 16 (.ofile 0 8) ∧ (owning 64 8).cubeShown 0 = none
    ∧ (cubing (cubeCmd oneMm 2 false)).cubeShown 0 = some (cubeCmd oneMm 2 false) :=
  by and_intros <;> first | decide +kernel | rfl | trivial

/-- A floating command of PLAIN `f16` operands, and a fill and a drain of one line at VA 64. -/
theorem met_CubeRuns_places : let s := cached (owning 64 8)
    let c : CubeCmd := { cubeCmd oneMm 1 false with dA := BitVec.ofNat 256 (18 * 16), dB := BitVec.ofNat 256 (18 * 16) }
    (c.isInt = false ∧ dLayout c.dA = 0 ∧ dLayout c.dB = 0)
    ∧ ((∀ l, l ∈ linesOf 262208 64 → s.mem.lineBad l = false) ∧ (64 + 0 * 4) % 2 ^ 64 % 64 + 4 * 1 ≤ 64
      ∧ ∀ e ∈ s.rlcs, e.2.queue = [])
    ∧ Reaches s 0 64 64 .read 262208 ∧ Reaches s 0 64 (4 * 1) .write 262208 :=
  ⟨by decide +kernel, by decide +kernel, reaches_of (by decide +kernel) (by decide +kernel), reaches_of (by decide +kernel) (by decide +kernel)⟩


/-! #### The fabric, parcels, refinement -/

/-- A number in memory at a VA of page 0, under `owning`. -/
def ownAt (x y va n v : Nat) : State := { owning x y with mem := ((stand x y).mem.writeN (262144 + va) n v).1 }

theorem met_FabricSends : let s := owning 64 128
    let far := owning (2 ^ 53) 8
    let u := stand 64 128
    (∃ d s1 a b s2 c s3, Op.readS 48 16 u = .ok (d, s1) ∧ Op.readAB 49 50 s1 = .ok ((a, b), s2) ∧ Op.readS 60 54 s2 = .ok (c, s3))
    ∧ ¬OwnsFab u 0 ∧ OwnsFab s 0
    ∧ (Op.readS 48 16 s = .ok (0, s) ∧ Op.readAB 49 50 s = .ok ((64, 128), s) ∧ BarrierOk 64 128 ∧ (s.fab.cmds.filter fun c => c.ctx = 8192).length < 64)
    ∧ (Op.readAB 49 50 far = .ok ((BitVec.ofNat 64 (2 ^ 53), 8), far) ∧ ¬BarrierOk (BitVec.ofNat 64 (2 ^ 53)) 8)
    ∧ (s.isLocal (64 : W64).toNat = true ∧ (64 : W64).toNat % 64 = 0 ∧ (128 : W64).toNat % 64 = 0 ∧ Op.readS 60 54 s = .ok (0, s) ∧ Op.readS 50 54 s = .ok (128, s)
      ∧ BarrierOk 128 128 ∧ Dst8 s 48 16 (.ofile 0 8))
    ∧ ¬(far.isLocal (BitVec.ofNat 64 (2 ^ 53)).toNat = true) ∧ (8 : W64).toNat % 64 ≠ 0
    ∧ ((64 : W64).toNat % (tyW 3 / 8) = 0 ∧ (128 : W64).toNat % 8 = 0 ∧ (64 + 1 : W64).toNat % (tyW 3 / 8) ≠ 0)
    ∧ (bfld (128 : W64) 22 42 = 0 ∧ bfld (128 : W64) 11 5 = 0 ∧ bfld (BitVec.ofNat 64 (2 ^ 53)) 22 42 ≠ 0)
    ∧ (Op.readS 49 10 s = .ok (64, s) ∧ bfld (64 : W64) 24 40 = 0 ∧ (64 : W64) ≠ 0 ∧ (∀ k, k < 16 → (64 : W64).getLsbD k = true → (s.part 0).ual.getLsbD k = true)
      ∧ ∀ k, k < 8 → (64 : W64).getLsbD (16 + k) = true → (s.part 0).spn.getLsbD k = true) :=
  ⟨⟨_, _, _, _, _, _, _, ok_of_answers (v := 0) (t := stand 64 128) (by decide +kernel), ok_of_answers (v := (64, 128)) (t := stand 64 128) (by decide +kernel),
      ok_of_answers (v := 0) (t := stand 64 128) (by decide +kernel)⟩, by unfold OwnsFab; decide +kernel, by unfold OwnsFab; decide +kernel,
    ⟨ok_of_answers (by decide +kernel), ok_of_answers (by decide +kernel), by unfold BarrierOk; decide, by decide +kernel⟩,
    ⟨ok_of_answers (by decide +kernel), by unfold BarrierOk; decide⟩,
    ⟨by decide +kernel, by decide, by decide, by and_intros <;> first | exact ok_of_answers (by decide +kernel) | (unfold BarrierOk; decide) | decide +kernel | rfl | trivial⟩,
    by decide +kernel, by decide, by decide, by decide, ok_of_answers (by decide +kernel), by decide +kernel⟩

/-- A collective descriptor: the sum of 16 elements of `i32` in group 0, chunks of one line, both buffers at VA 0. -/
def sumDesc : Nat := 1 + 2 * 2 ^ 16 + 2 ^ 208 + 16 * 2 ^ 224

/-- `ownAt` with group 0 of this device alone. -/
def grouped (v : Nat) : State := { ownAt 64 8 64 64 v with fab := { groups := [(0, [(0, 0)])] } }

/-- A collective that runs, with no line received. -/
def summing : State := { grouped 0 with fab := { (grouped 0).fab with colls := [(0, { desc := BitVec.ofNat 512 sumDesc, k := 1, busy := true })] } }

theorem met_BarriersAndCollectives : let s := owning 64 8
    let far := owning (2 ^ 53) 8
    let met := ownAt 64 8 64 64 0
    let unmet := ownAt 64 8 64 64 5
    (Op.readAB 49 50 s = .ok ((64, 8), s) ∧ (64 : W64).toNat % 64 = 0 ∧ s.isLocal (64 : W64).toNat = true
      ∧ ∃ g segs r u, Op.transl 64 64 .write 2 s = .ok ((g :: segs, r), u))
    ∧ (Op.readAB 50 50 s = .ok ((8, 8), s) ∧ (8 : W64).toNat % 64 ≠ 0)
    ∧ (Op.readAB 49 50 far = .ok ((BitVec.ofNat 64 (2 ^ 53), 8), far) ∧ (BitVec.ofNat 64 (2 ^ 53)).toNat % 64 = 0
      ∧ far.isLocal (BitVec.ofNat 64 (2 ^ 53)).toNat = false ∧ Op.readS 49 10 far = .ok (BitVec.ofNat 64 (2 ^ 53), far))
    ∧ (loading.strand? 0 = some loading.me ∧ 262144 % 64 = 0 ∧ loading.mem.lineBad (262144 / 64) = false)
    ∧ (Op.readS 49 10 met = .ok (64, met) ∧ met.view.q.accs = [] ∧ (∃ u, Op.loadNow 64 64 met = .ok (.ok 0, u)) ∧ 0 % 2 ^ 64 ≤ 0 / 2 ^ 64 % 2 ^ 64)
    ∧ ((∃ u, Op.loadNow 64 64 unmet = .ok (.ok 5, u)) ∧ 5 / 2 ^ 64 % 2 ^ 64 < 5 % 2 ^ 64 ∧ unmet.view.sch.waitDone = false)
    ∧ (Op.readS 49 10 (grouped sumDesc) = .ok (64, grouped sumDesc)
      ∧ (∃ u, Op.loadNow (BitVec.ofNat 64 ((64 : W64).toNat / 64 * 64)) 64 (grouped sumDesc) = .ok (.ok sumDesc, u))
      ∧ OwnsFab (grouped sumDesc) 0 ∧ ((grouped sumDesc).coll 0).busy = false ∧ CollGood (grouped sumDesc) (BitVec.ofNat 512 sumDesc)
      ∧ Dst8 (grouped sumDesc) 48 16 (.ofile 0 8) ∧ ((grouped sumDesc).fab.cmds.filter fun c => c.ctx = 8192).length < 64)
    ∧ ¬CollGood (grouped 0) 0
    ∧ (Op.readS 60 10 summing = .ok (0, summing) ∧ (0 : W64).toNat < (summing.collLines (summing.coll 0).desc + 1 - 1) / 1 ∧ (summing.coll 0).desc ≠ 0
      ∧ (summing.coll 0).busy = true ∧ (summing.coll 0).got = [] ∧ bfld (summing.coll 0).desc 208 16 = 1)
    ∧ (Op.readS 49 10 summing = .ok (64, summing) ∧ (summing.collLines (summing.coll 0).desc + 1 - 1) / 1 ≤ (64 : W64).toNat) ∧ (s.coll 0).desc = 0
    ∧ ((8 : W64) ≠ 0 ∧ bfld (8 : W64) 12 52 = 0 ∧ bfld (64 : W64) 11 53 = 0 ∧ (64 : W64).toNat + (8 : W64).toNat ≤ 2048 ∧ bfld (BitVec.ofNat 64 (2 ^ 53)) 11 53 ≠ 0)
    ∧ ∀ o ∈ s.fab.outs, ∀ k ∈ o.pkts, k.st.here = false :=
  ⟨⟨ok_of_answers (by decide +kernel), by decide, by decide +kernel, atom_with (by decide +kernel)⟩, ⟨ok_of_answers (by decide +kernel), by decide⟩,
    ⟨ok_of_answers (by decide +kernel), by decide, by decide +kernel, ok_of_answers (by decide +kernel)⟩, by decide +kernel,
    ⟨ok_of_answers (by decide +kernel), by decide +kernel, ok_of_loadedOf (by decide +kernel), by decide⟩,
    ⟨ok_of_loadedOf (by decide +kernel), by decide +kernel⟩,
    ⟨ok_of_answers (by decide +kernel), ok_of_loadedOf (by decide +kernel), by unfold OwnsFab; decide +kernel, by decide +kernel, by unfold CollGood; decide +kernel,
      ⟨rfl, rfl, trivial⟩, by decide +kernel⟩, by unfold CollGood; decide +kernel,
    ⟨ok_of_answers (by decide +kernel), by decide +kernel⟩,
    ⟨ok_of_answers (by decide +kernel), by decide +kernel⟩, by decide +kernel⟩

/-- `owning` with slot 3 in a state, its extent 4 KiB at VA 0. -/
def parceled (x y st : Nat) : State := { owning x y with slots := [(3, { st := st, base := 0, size := 4096, arm := 1, peer := some (1, 1) })] }

/-- The handle of slot 3 in its first generation. -/
def handle3 : Nat := 65536 + 3

theorem met_Parcels : let s := owning 64 64
    let v := parceled handle3 0 1
    let h : W64 := BitVec.ofNat 64 handle3
    (Op.readAB 49 50 s = .ok ((64, 64), s) ∧ ExtentFit s 64 64 ∧ ((s.part 0).pcLo ≤ 0 ∧ 0 < (s.part 0).pcLo + (s.part 0).pcN ∧ (s.slot 0).st = 0)
      ∧ s.extentBusy 0 64 64 = false ∧ Dst8 s 48 16 (.ofile 0 8))
    ∧ (Op.readAB 49 60 s = .ok ((64, 0), s) ∧ ¬ExtentFit s 64 0)
    ∧ (Op.readAB 49 50 (stand 64 64) = .ok ((64, 64), stand 64 64) ∧ ExtentFit (stand 64 64) 64 64 ∧ ((stand 64 64).part 0).pcN = 0)
    ∧ (Op.readS 49 10 v = .ok (h, v) ∧ bfld h 12 4 = 0 ∧ bfld h 0 12 = 3 ∧ HandleNames v h 3 ∧ v.extentBusy 0 0 4096 = false ∧ v.slotOwn v.view.id.part 3 = true)
    ∧ (bfld (BitVec.allOnes 64) 12 4 ≠ 0 ∧ Op.readS 61 10 v = .ok (BitVec.allOnes 64, v))
    ∧ (((parceled handle3 0 4).slot 3).st = 4 ∧ ((parceled handle3 0 2).slot 3).st = 2 ∧ (parceled handle3 0 2).slotOwn 0 3 = true)
    ∧ (Op.readAB 49 50 v = .ok ((h, 0), v) ∧ (0 + int64 (signed 15 0) : W64).toNat + 8 ≤ (v.slot 3).size
      ∧ (∃ segs r u, Op.translPieces .read 0 (pieces 0 8) v = .ok ((segs, r), u) ∧ (!segs.isEmpty) = true)
      ∧ (∃ segs r u, Op.translPieces .read 0 (pieces 0 4) v = .ok ((segs, r), u) ∧ (!segs.isEmpty) = true)
      ∧ (∃ segs r u, Op.translPieces .read 0 (pieces 0 256) v = .ok ((segs, r), u) ∧ (!segs.isEmpty) = true)
      ∧ (∃ segs r u, Op.translPieces .write 1 (pieces 0 256) v = .ok ((segs, r), u) ∧ (!segs.isEmpty) = true)
      ∧ (∀ e ∈ v.view.q.accs, e.q = .store) ∧ Dst256 v 48 16 (.ofile 0 256) ∧ Dst8 v 48 16 (.ofile 0 8))
    ∧ ((v.slot 3).size < (0 + int64 (signed 15 4089) : W64).toNat + 8)
    ∧ (Op.stData true 49 v = .ok (h.setWidth 2048, v) ∧ Op.stData false 60 v = .ok (0, v) ∧ (0 : Vec).toNat % 2 ^ 64 < (v.slot 3).size)
    ∧ (OwnsFab v 0 ∧ Op.readS 60 54 v = .ok (0, v) ∧ bfld (0 : W64) 28 36 = 0 ∧ bfld (0 : W64) 11 5 = 0 ∧ bfld (BitVec.allOnes 64) 28 36 ≠ 0
      ∧ (BitVec.allOnes 64).toNat % 8 ≠ 0 ∧ Op.readS 61 54 v = .ok (BitVec.allOnes 64, v) ∧ (v.fab.cmds.filter fun c => c.ctx = 8192).length < 64)
    ∧ (s.slotOwn 0 16 = false ∧ s.slotOwn 0 15 = true ∧ (s.slot 15).st = 0 ∧ ¬ExtentFit v 64 64 ∧ ExtentFit v 4096 64 ∧ (v.slot 3).st ≠ 0)
    ∧ ((0 : W64).toNat ≤ (s.ctx (5 * 4096)).counter.toNat ∧ (s.ctx (5 * 4096)).counter.toNat < (64 : W64).toNat ∧ s.view.sch.waitDone = false
      ∧ Op.readS 49 10 s = .ok (64, s) ∧ Op.readS 60 10 s = .ok (0, s))
    ∧ ((stand 3 0).slotOwn (stand 3 0).view.id.part (bfld (3 : W64) 0 12) = false) :=
  ⟨⟨ok_of_answers (by decide +kernel), by unfold ExtentFit; decide +kernel, by decide +kernel, by decide +kernel, ⟨rfl, rfl, trivial⟩⟩,
    ⟨ok_of_answers (by decide +kernel), by unfold ExtentFit; decide +kernel⟩,
    ⟨ok_of_answers (by decide +kernel), by unfold ExtentFit; decide +kernel, by decide +kernel⟩,
    ⟨ok_of_answers (by decide +kernel), by decide, by decide, by unfold HandleNames; decide +kernel, by decide +kernel⟩,
    ⟨by decide, ok_of_answers (by decide +kernel)⟩, by decide +kernel,
    ⟨ok_of_answers (by decide +kernel), by decide +kernel, by
      and_intros <;> first | exact transl_with (fun a _ => !a.isEmpty) (by decide +kernel) | decide +kernel | rfl | trivial⟩, by decide +kernel,
    ⟨ok_of_answers (by decide +kernel), ok_of_answers (by decide +kernel), by decide +kernel⟩,
    ⟨by unfold OwnsFab; decide +kernel, ok_of_answers (by decide +kernel), by decide, by decide, by decide, by decide, ok_of_answers (by decide +kernel), by decide +kernel⟩,
    by and_intros <;> first | decide +kernel | (unfold ExtentFit; decide +kernel),
    by and_intros <;> first | decide +kernel | exact ok_of_answers (by decide +kernel), by decide +kernel⟩

/-- A parcel access of slot 3, queued, that reads the line at VA 0. -/
def slotLoad : Access := { id := 1, q := .load, act := .load [⟨0, 262144, 64, 0⟩] true 64, slot := some 3 }

/-- `parceled` with that access in a strand's own queues: entered by an earlier bundle, or by an earlier word of this one. -/
def slotQueued (before : Bool) (st : Nat) : State :=
  let s := parceled handle3 64 st
  let x : Strand := { s.me with q := { s.me.q with next := 2, accs := [slotLoad] } }
  { s.setMe x with issue := { s.issue with snap := if before then x else s.view } }

/-- `parceled` with that access in the queues of another strand, numbered 9. -/
def slotShared (st : Nat) : State :=
  let s := parceled handle3 64 st
  { s with strands := SMap.insert s.strands 9 { s.me with q := { s.me.q with next := 2, accs := [slotLoad] } } }

/-- FBWAIT and FCOLL wait: an access of an earlier bundle, of an earlier word, and a collective that runs. -/
theorem met_BarriersAndCollectives_waits : let s := owning 64 8
    let own := slotQueued false 1
    s.statusHits [(262144, 64)] = [] ∧ (slotQueued true 1).view.q.accs ≠ [] ∧ (slotQueued true 1).isLocal 64 = true
    ∧ (own.view.q.accs = [] ∧ own.me.q.accs ≠ [] ∧ Op.readS 50 10 own = .ok (64, own))
    ∧ (OwnsFab summing 0 ∧ (summing.coll 0).busy = true ∧ Op.readS 49 10 summing = .ok (64, summing)
      ∧ ∃ u, Op.loadNow (BitVec.ofNat 64 ((64 : W64).toNat / 64 * 64)) 64 summing = .ok (.ok 0, u)) := by
  and_intros <;> first | decide +kernel | exact ok_of_answers (by decide +kernel) | (unfold OwnsFab; decide +kernel) | exact ok_of_loadedOf (by decide +kernel)

/-- What PALLOC, PFREE, POST and PRECV.arm wait for, of other strands and of their own, and an offset of a parcel in its memory. -/
theorem met_Parcels_waits : let h : W64 := BitVec.ofNat 64 handle3
    let here (e : Access) : Bool := decide (e.slot = some 3)
    let v := parceled handle3 64 1
    HandleNames (slotQueued true 1) h 3 ∧ HandleNames (slotQueued false 1) h 3 ∧ HandleNames (slotShared 1) h 3
    ∧ ((slotShared 1).slotUsed 3 = true ∧ (slotShared 0).extentBusy 0 0 64 = true)
    ∧ ((slotQueued true 1).slotUsed 3 = false ∧ ∃ e ∈ (slotQueued true 1).view.q.accs, here e = true ∧ e.touches 0 64 = true)
    ∧ ((∀ e ∈ (slotQueued false 1).view.q.accs, here e = false ∧ e.touches 0 64 = false)
      ∧ ∃ e ∈ (slotQueued false 1).me.q.accs, here e = true ∧ e.touches 0 64 = true)
    ∧ (ClearAhead v (v.slotUsed 3) here ∧ ClearAhead v (v.extentBusy 0 0 64) (fun e => e.touches 0 64) ∧ ClearAhead v false fun e => decide (e.q ≠ .store))
    ∧ (v.mem.badVa [⟨0, 262208, 4, 64⟩] = none ∧ v.mem.gather [⟨0, 262208, 4, 64⟩] < (v.slot 3).size) := by
  unfold HandleNames ClearAhead
  decide +kernel

/-- A good block: one rung of `i8`, at most `n` iterations, escalation codes in bits 10 and 11, and thresholds. -/
def block (n esc : Nat) : Nat := 1 + esc * 2 ^ 10 + n * 2 ^ 32 + 2 ^ 448 + 2 ^ 512 + 0x3FF0000000000000 * 2 ^ 576

/-- A block of a node, queued. -/
def qblock (n esc : Nat) : RBlock :=
  { seq := 1, iss := .node 0, va := 256, blk := BitVec.ofNat 1024 (block n esc), pasid := 0, part := 0, launch := 0, stage := 0, fr := {}, cube := false, gate := none }

/-- A context that runs a block in a state. -/
def refining (v : Rlc) : State := { owning 1 4 with rlcs := [(0, v)] }

/-- eta of a test. -/
def etaTest (v : Rlc) (n esc : Nat) : W64 := etaOf v.normSum (BitVec.ofNat 64 (bfld (qblock n esc).blk 576 64))

theorem met_Refinement : let s := ownAt 256 8 256 128 (block 1 0)
    let bad := ownAt 256 8 256 128 0
    let run := refining { queue := [qblock 1 0], st := 1 }
    (Op.readS 49 10 s = .ok (256, s) ∧ s.ctxOwn s.view.id.part (3 * 4096) = true ∧ (256 : W64).toNat % 256 = 0 ∧ (s.rlc 0).queue.length < 8
      ∧ (∃ u, Op.loadNow 256 128 s = .ok (.ok (block 1 0), u)) ∧ blkBad 256 (BitVec.ofNat 1024 (block 1 0)) = none ∧ Dst8 s 48 16 (.ofile 0 8))
    ∧ ((stand 256 8).ctxOwn (stand 256 8).view.id.part (3 * 4096) = false ∧ Op.readS 50 10 s = .ok (8, s) ∧ (8 : W64).toNat % 256 ≠ 0)
    ∧ ((∃ u, Op.loadNow 256 128 bad = .ok (.ok 0, u)) ∧ blkBad 256 (BitVec.ofNat 1024 0) = some 0)
    ∧ ((s.rlc 0).st = 0 ∧ (run.rlc 0).st ≠ 0)
    ∧ (Op.readS 50 10 run = .ok (4, run) ∧ 4 ≤ (4 : W64).toNat ∧ Op.readS 49 10 run = .ok (1, run) ∧ (run.rlc 0).queue.head? = some (qblock 1 0)
      ∧ blkNr (qblock 1 0).blk < (1 : W64).toNat)
    ∧ ((run.rlc 0).rung < (1 : W64).toNat ∧ (1 : W64).toNat ≤ blkNr (BitVec.ofNat 1024 (1 + 2 ^ 8)))
    ∧ ((s.rlc 0).queue = [] ∧ (refining { queue := [qblock 1 0] }).mayStart (qblock 1 0).iss (qblock 1 0).gate = true)
    ∧ ((run.rlc 0).gang = [] ∧ run.stageWaits 0 = false ∧ (∀ w ∈ run.words, w.after ≠ .status 0))
    ∧ (let v : Rlc := {}
       v.fl.toNat &&& bfld (qblock 1 0).blk 13 6 = 0 ∧ (unpackVal 0 16 (etaTest v 1 0).toNat).isFin = true
        ∧ fLt (unpackVal 0 16 (bfld (qblock 1 0).blk 384 64)) (unpackVal 0 16 (etaTest v 1 0).toNat) = false)
    ∧ (let v : Rlc := { fl := 1 }
       v.fl.toNat &&& bfld (BitVec.ofNat 1024 (block 1 8)) 13 6 ≠ 0)
    ∧ (let v : Rlc := { norm := [(0, 0x3FF0000000000000)] }
       (unpackVal 0 16 (etaTest v 1 0).toNat).isFin = true ∧ fLt (unpackVal 0 16 (bfld (qblock 1 0).blk 384 64)) (unpackVal 0 16 (etaTest v 1 0).toNat) = true
        ∧ v.prev = none ∧ v.k + 1 = bfld (qblock 1 0).blk 32 32 ∧ v.k + 1 ≠ bfld (qblock 2 0).blk 32 32) :=
  ⟨⟨ok_of_answers (by decide +kernel), by decide +kernel, by decide, by decide +kernel, ok_of_loadedOf (by decide +kernel), by decide +kernel, rfl, rfl, trivial⟩,
    ⟨by decide +kernel, ok_of_answers (by decide +kernel), by decide⟩, ⟨ok_of_loadedOf (by decide +kernel), by decide +kernel⟩, by decide +kernel,
    ⟨ok_of_answers (by decide +kernel), by decide, ok_of_answers (by decide +kernel), by decide +kernel⟩, by decide +kernel⟩

/-- Stages that end: a block of a partition torn down, an exit, an escalation, a request of a later iteration; a queue that is full and a strand that
is told of its block's exit. -/
theorem met_Refinement_ends : let run (v : Rlc) : State := refining { v with queue := [qblock 1 0] }
    let down (v : Rlc) : State := { run v with parts := [(0, { owner with st := 2 })] }
    (((refining { queue := List.replicate 8 (qblock 1 0) }).rlc 0).queue.length ≥ 8 ∧ (refining {}).ctxOwn 0 (3 * 4096) = true)
    ∧ (((down { st := 2 }).part 0).st = 2 ∧ ∀ i ∈ ((down { st := 2 }).rlc 0).gang, (((down { st := 2 }).strand? i).getD {}).place.resident = false)
    ∧ (((run { st := 2 }).part 0).st ≠ 2 ∧ ((run { st := 2, gang := [0] }).rlc 0).gang ≠ [])
    ∧ (((run { st := 4, after := 200, fin := 1 }).rlc 0).after = 200 ∧ ((run { st := 4, after := 1 }).rlc 0).after < 100
      ∧ ((run { st := 4, req := some 1 }).rlc 0).req = some 1 ∧ blkNr (qblock 1 0).blk < 101 - 100 ∧ ¬blkNr (BitVec.ofNat 1024 (block 1 0 + 2 ^ 8)) < 1)
    ∧ (((run { st := 5, trapped := true }).rlc 0).trapped = true ∧ (∀ w ∈ (run { st := 5 }).words, w.after ≠ .status 0)
      ∧ ∃ y, (run { st := 5 }).strand? 0 = some y ∧ y.id.state ≠ 7) := by
  and_intros <;> first | decide +kernel | exact ⟨_, rfl, by decide +kernel⟩

/-! #### Chuck, waits, pages -/

/-- An LPB: one gang of one strand, four units, node 0, a save stride of 2 KiB. -/
def oneLpb : Nat := 1 + 2 ^ 24 + 2 ^ 32 + 4 * 2 ^ 160 + 4 * 2 ^ 171 + 8 * 2 ^ 256

/-- A launch with a gang to place, and its entries in the context store or not. -/
def placing (entries : Nat) : State :=
  { owning 5 3 with nextSid := 1, chuck :=
      { ctx := 8, nodes := [(0, { kind := .launch, st := .ready, lpb := BitVec.ofNat 2048 oneLpb, resv := entries })], waiting := [.gang 0 0] } }

theorem met_Placement : (stand 5 3).nextPlacement = none ∧ ((placing 1).nextPlacement.any fun x => x.1 = .gang 0) = true
    ∧ (stand 5 3).unitsInOrder = []
    ∧ ((placing 0).unitsInOrder = [.gang 0] ∧ (placing 0).choice (.gang 0) = none ∧ (placing 0).chuck.reserved = []
      ∧ (placing 0).reserveFor (.gang 0) = some 1)
    ∧ (placing 1).choice (.gang 0) ≠ none
    ∧ (stand 5 3).strand? 1 = none ∧ (stand 5 3).me.id.state ≠ 7
    ∧ (let s := standBut 5 3 fun t => { t with id := { t.id with state := 7 } }
       ∃ y, s.strand? 0 = some y ∧ y.id.state = 7 ∧ y.place.resident = true ∧ y.q.accs = [] ∧ s.engineBusy 0 = false)
    ∧ (stand 5 3).nextCreation = none ∧ (placing 0).nextCreation = some (.gang 0 0) := by
  and_intros <;> first | exact ⟨_, rfl, by decide +kernel⟩ | decide +kernel

/-- `stand` whose strand has the state, reason and wait of the timeline 0 given. -/
def waiting (state reason kind val : Nat) : State := standBut 5 3 fun t =>
  { t with id := { t.id with state := state, reason := reason, wkind := kind, wval := BitVec.ofNat 64 val } }

theorem met_StrandEvents : (stand 5 3).strand? 1 = none
    ∧ (∃ y, (waiting 2 3 1 5).strand? 0 = some y ∧ y.id.wkind = 1 ∧ y.id.state = 2 ∧ y.sch.stop = none ∧ (waiting 2 3 1 5).waitMet y = false)
    ∧ (∃ y, (waiting 2 3 1 0).strand? 0 = some y ∧ y.id.state = 2 ∧ y.sch.stop = none ∧ (waiting 2 3 1 0).waitMet y = true)
    ∧ (∃ y, (waiting 3 3 1 0).strand? 0 = some y ∧ y.id.state = 3 ∧ 3 ≤ y.id.reason ∧ y.id.reason ≤ 6 ∧ y.sch.held = false ∧ (waiting 3 3 1 0).waitMet y = true)
    ∧ (∃ y, (waiting 3 6 1 0).strand? 0 = some y ∧ y.id.reason = 6)
    ∧ (∃ y, (stand 5 3).strand? 0 = some y ∧ y.runs = true ∧ y.sch.preempt = false) ∧ (∃ y, (waiting 2 3 1 0).strand? 0 = some y ∧ y.runs = false)
    ∧ (∃ y, (waiting 3 7 0 0).strand? 0 = some y ∧ y.id.reason = 7 ∧ y.sch.held = false
      ∧ (waiting 3 7 0 0).mem.faultKey y.id.pasid.toNat 65536 ≠ y.sch.faultKey ∧ (waiting 3 7 0 0).mem.faultKey y.id.pasid.toNat y.sch.faultVa.toNat = y.sch.faultKey)
    ∧ (let s := standBut 5 3 fun t => { t with id := { t.id with state := 3, reason := 7 }, sch := { t.sch with faultVa := 65536 } }
       ∃ y, s.strand? 0 = some y ∧ s.mem.faultKey y.id.pasid.toNat y.sch.faultVa.toNat ≠ y.sch.faultKey)
    ∧ (let s := standBut 5 3 fun t => { t with sch := { t.sch with preempt := true } }
       ∃ y, s.strand? 0 = some y ∧ y.sch.preempt = true ∧ y.place.resident = true ∧ y.id.state = 1 ∧ y.sch.stop = none)
    ∧ (let s := standBut 5 3 fun t => { t with sch := { t.sch with preempt := true, stop := some .stage } }
       ∃ y, s.strand? 0 = some y ∧ y.sch.stop ≠ none) := by
  and_intros <;> first | exact ⟨_, rfl, by decide +kernel⟩ | decide +kernel

/-- A migration of the page at VA 0 to frame 5. -/
def moving (round marked : Nat) (frozen : Bool) : State :=
  { owning 64 8 with mem := { (owning 64 8).mem with
      migs := [{ pasid := 0, va := 0, old := 262144, new := 327680, round := round, marked := (List.range marked).map (4096 + ·), frozen := frozen }] } }

theorem met_LeasesAndMigration : leased.strand? 0 = some leased.me ∧ (stand 5 3).mem.mig? 0 0 = none
    ∧ ((moving 0 256 false).mem.mig? 0 0).any (fun g => !g.frozen && decide (g.marked.length ≤ 256)) = true
    ∧ ((moving 15 257 false).mem.mig? 0 0).any (fun g => !g.frozen && decide (256 < g.marked.length) && decide (15 ≤ g.round)) = true
    ∧ (∃ g, (moving 14 257 false).mem.mig? 0 0 = some g ∧ g.frozen = false ∧ 256 < g.marked.length ∧ g.round < 15 ∧ g.old % 64 = 0 ∧ g.new % 64 = 0
      ∧ g.old + 65536 ≤ g.new ∧ g.marked.Nodup ∧ ∀ l ∈ g.marked, g.old ≤ 64 * l ∧ 64 * l < g.old + 65536)
    ∧ (∃ g, (moving 3 0 true).mem.mig? 0 0 = some g ∧ g.frozen = true ∧ g.marked = [] ∧ g.new % 65536 = 0
      ∧ ∀ l, l ∈ linesOf (((moving 3 0 true).mem.moveNode g).leafAt g.pasid g.va) 8 → (moving 3 0 true).mem.lineBad l = false) := by
  and_intros <;> first | exact ⟨_, rfl, by decide +kernel⟩ | decide +kernel

/-- The page that holds the leaf node moves: the root's entry names it, and the walker reads it from the new frame. -/
theorem met_LeasesAndMigration_node : let m := (stand 5 3).mem
    let g : Mig := { pasid := 0, va := 0, old := 196608, new := 327680, round := 3, marked := [], frozen := true }
    ∃ x ∈ m.nodeEntries, m.namesNode x.1 x.2 (g.old / 65536) = true ∧ x.1 / 65536 ≠ g.old / 65536 ∧ (x.1 < g.new ∨ g.new + 65536 ≤ x.1)
      ∧ (m.moveNode g).nodeFrame x.1 x.2 = 5 := by
  decide +kernel

/-! #### Transactions received -/

/-- A line that passes its check, and one that does not. -/
def unit (v : Nat) (ok : Bool) : CLine := { data := BitVec.ofNat 512 v, ok := ok }

/-- A transaction of device 1, context 2, tag 7 to this device. -/
def sent (op typ fn va aux o0 o1 : Nat) (us : List CLine) : Txn :=
  ({ op := op, dst := 0, src := 1, ctx := 2, tag := 7, typ := typ, fn := fn, va := va, aux := aux, opnd0 := o0, opnd1 := o1 } : Hdr).txn us

/-- The bytes a transaction names translate at this device to one good run. -/
def lands (s : State) (t : Txn) (n : Nat) : Bool :=
  match (s.unqueue t).translate t.pasid t.va n .write with
  | .ok ([g], u) => g.off = 0 && g.len = n && (linesOf g.pa n).all (fun l => !u.mem.lineBad l) && g.pa % 64 = t.va % 64
  | _ => false

theorem of_lands {s : State} {t : Txn} {n : Nat} (h : lands s t n = true) :
    ∃ g u, (s.unqueue t).translate t.pasid t.va n .write = .ok ([g], u) ∧ SegGood u.mem g n ∧ g.pa % 64 = t.va % 64 := by
  unfold lands at h
  split at h
  · next g u e =>
    simp only [Bool.and_eq_true, decide_eq_true_eq, List.all_eq_true, Bool.not_eq_true'] at h
    exact ⟨g, u, e, ⟨h.1.1.1, h.1.1.2, h.1.2⟩, h.2⟩
  · cases h

theorem met_RemoteAccesses : let s := owning 64 8
    let frozen := moving 3 0 true
    let one := [unit 5 true]
    let w := sent 1 0 0 64 0 0 1 one
    let ws := sent 2 4 0 1 0 0x1FF 1 []
    let a := sent 3 3 0 8 0 5 0 []
    let c := sent 4 7 0 8 0 5 0 []
    let b (typ fn : Nat) (us : List CLine) := sent 5 typ fn 64 0 1 0 us
    (Arrives s w 1 ∧ lands s w 64 = true ∧ UnitsGood w ∧ w.units ≠ [] ∧ w.va % 64 = 0 ∧ homeOf w.va = w.dst ∧ w.aux = 0 ∧ (s.unqueue w).barFrozen w = false)
    ∧ (Arrives s ws 2 ∧ lands s ws 1 = true ∧ ws.units = [] ∧ ws.typ < 8) ∧ (Arrives s (sent 2 8 0 8 0 0 1 []) 2)
    ∧ (w.reserved = false ∧ w.op = 1 ∧ w.op ≠ 2 ∧ (sent 1 0 0 64 0 0 1 [unit 5 true, unit 5 true, unit 5 true, unit 5 true, unit 5 true]).reserved = true)
    ∧ (∃ v ∈ (s.unqueue w).fab.stalled ++ ({ s with fab := { stalled := [w] } } : State).fab.stalled, v.src = w.src ∧ v.tag = w.tag)
    ∧ (sent 0 0 0 0 0 0 0 []).reserved = true ∧ Arrives s (sent 7 0 0 0 0 0 0 one) 7
    ∧ (let bar := sent 1 0 0 64 128 0 2 one
       let last := sent 1 0 0 64 128 0 1 one
       bar.aux ≠ 0 ∧ 1 < bar.opnd1 ∧ Arrives s bar 1 ∧ last.opnd1 ≤ 1 ∧ lands s { last with hdr := last.hdr } 64 = true
        ∧ Arrives frozen bar 1 ∧ (frozen.unqueue bar).barFrozen bar = true ∧ lands s (sent 1 0 0 128 128 0 1 one) 64 = true)
    ∧ (∃ f, (s.unqueue w).translate 0 65536 64 .write = .error f) ∧ (∃ f, (frozen.unqueue w).translate 0 64 64 .write = .error f)
    ∧ ¬UnitsGood (sent 1 0 0 64 0 0 1 [unit 5 false])
    ∧ (Arrives s a 3 ∧ lands s a 8 = true ∧ a.units = [] ∧ a.typ = 3 ∧ a.fn ≤ 7 ∧ a.va % 8 = 0) ∧ (Arrives s (sent 3 17 3 8 0 5 0 []) 3)
    ∧ (Arrives s c 4 ∧ lands s c 8 = true) ∧ Arrives s (sent 4 17 0 8 0 5 0 []) 4
    ∧ (∀ x ∈ [b 2 0 one, b 16 0 one, b 2 0x20 (one ++ one), b 17 0x21 one, b 7 0x22 [], b 7 0x23 [], b 3 8 one, b 3 5 one],
        bankUnits x.fn x.typ = some x.units.length ∧ x.va % 64 = 0 ∧ homeOf x.va = x.dst ∧ lands s x 64 = true ∧ x.op = 5 ∧ x.count = x.units.length ∧ x.reserved = false)
    ∧ bankUnits 6 2 = none := by
  and_intros <;> first | decide +kernel | (unfold Arrives; decide +kernel) | (unfold UnitsGood; decide +kernel) | skip
  · obtain ⟨e, h, -⟩ := error_with (o := ((owning 64 8).unqueue (sent 1 0 0 64 0 0 1 [unit 5 true])).translate 0 65536 64 .write) (fun _ => true) (by decide +kernel)
    exact ⟨e, h⟩
  · obtain ⟨e, h, -⟩ := error_with (o := ((moving 3 0 true).unqueue (sent 1 0 0 64 0 0 1 [unit 5 true])).translate 0 64 64 .write) (fun _ => true) (by decide +kernel)
    exact ⟨e, h⟩

/-- No status area is met, and a line that fails its check meets a write of part of it, an atomic and a bank command. -/
theorem met_RemoteAccesses_lines : let s := owning 64 8
    let f := failing s
    let g : Seg := ⟨0, 262144, 8, 0⟩
    s.statusHits [(262144, 64)] = [] ∧ s.statusHits [(262144, 8)] = []
    ∧ (f.mem.lineBad 4096 = true ∧ linesOf g.pa g.len = [4096] ∧ coversLine g.pa g.len 4096 = false ∧ f.mem.badSeg [g] = some 4096)
    ∧ ∃ u, (cached f).translate 0 0 8 .write = .ok ([g], u) := by
  and_intros <;> first | decide +kernel | skip
  obtain ⟨⟨l, u⟩, h, p⟩ := ok_with (o := (cached (failing (owning 64 8))).translate 0 0 8 .write) (fun x => decide (x.1 = [⟨0, 262144, 8, 0⟩])) (by decide +kernel)
  obtain rfl : l = [⟨0, 262144, 8, 0⟩] := of_decide_eq_true p
  exact ⟨u, h⟩

/-- A request area at VA 0 that takes `cap` records, and how many were taken before. -/
def asked (cap origin issued : Nat) : State :=
  { owning 64 8 with fab := { areas := [(0, { cap := BitVec.ofNat 32 cap, origin := BitVec.ofNat 32 origin })] },
                     ctxs := [(6 * 4096, { issued := BitVec.ofNat 64 issued })] }

/-- Slot 3 armed at VA 0, or taking the lines of device 1's tag 7, with room for 4 KiB. -/
def armed (st : Nat) : State := { owning 64 8 with slots := [(3, { st := st, size := 4096, arm := 1, peer := if st = 5 then some (1, 7) else none, lines := if st = 5 then 1 else 0 })] }

/-- An `FCOLL` of two lines that runs, with its command. -/
def collecting : State :=
  let d : Line := BitVec.ofNat 512 (sumDesc + 16 * 2 ^ 224)
  { grouped 0 with fab := { (grouped 0).fab with
      colls := [(0, { desc := d, k := 1, busy := true })]
      cmds := [{ ctx := 8192, seq := 1, sid := 0, gate := 0, part := 0, pasid := 0, node := 0, rel := false, kind := .coll d 1, st := 1 }] } }

/-- A packet of tag 7 with a place. -/
def outstanding (op x : Nat) : State :=
  { owning 64 8 with fab := { outs := [{ tag := 7, org := .cmd 8192 1, part := 0, pkts := [{ txn := sent op 0 0 0 0 0 0 [], st := .placed x }] }] } }

theorem met_RequestsAndAnswers : let one := [unit 5 true]
    let rq := sent 6 0 0 0 0 0 0 one
    let d (s : State) := ((s.ctx (6 * 4096)).issued.toNat + 1 + (2 ^ 32 - (s.area 0).origin.toNat)) % 2 ^ 32
    (Arrives (asked 2 0 0) rq 6 ∧ Arrives (asked 2 0 0) (sent 6 0 0 0 0 0 0 []) 6 ∧ rq.units = one ∧ nfld rq.aux 16 6 = 0)
    ∧ ((asked 0 0 0).area 0).cap = 0 ∧ (d (asked 2 0 2) = 3 ∧ ((asked 2 0 2).area 0).cap.toNat < 3) ∧ d (asked 2 1 0) = 0 ∧ d (asked 2 0 0) = 1 ∧ d (asked 2 0 1) = 2
    ∧ (lands (asked 2 0 0) rq 64 = true ∧ ((asked 2 0 0).area 0).base = 0 ∧ rq.va = 0)
    ∧ (let l := sent 9 0 0 0 (3 * 65536) 0 64 one
       Arrives (armed 4) l 9 ∧ nfld l.aux 16 12 = 3 ∧ l.units ≠ [] ∧ l.opnd0 % 64 = 0 ∧ l.opnd0 + 64 * l.units.length ≤ l.opnd1
        ∧ ((armed 4).slot 3).st = 4 ∧ l.opnd0 = 0 ∧ l.opnd1 ≤ ((armed 4).slot 3).size ∧ ((armed 5).slot 3).peer = some (l.src, l.tag)
        ∧ ((armed 1).slot 3).st = 1 ∧ UnitsGood l)
    ∧ (∃ g u, ((armed 4).unqueue (sent 9 0 0 0 (3 * 65536) 0 64 one)).translateOwn 0 0 64 .write = .ok ([g], u))
    ∧ (((armed 4).slot 3).size < (sent 9 0 0 0 (3 * 65536) 0 4160 one).opnd1 ∧ ¬(0 + 64 ≤ (sent 9 0 0 0 (3 * 65536) 0 0 one).opnd1))
    ∧ (Arrives (armed 5) (sent 10 0 0 0 (3 * 65536) 1 64 []) 10 ∧ ((armed 5).slot 3).st = 5 ∧ ((armed 5).slot 3).peer = some (1, 7)
      ∧ ((armed 5).slot 3).lines = 1 ∧ ((armed 5).slot 3).lines ≠ 2)
    ∧ (Arrives (armed 4) (sent 11 0 0 0 (3 * 65536) 0 0 []) 11 ∧ Arrives (armed 1) (sent 11 0 0 0 (3 * 65536) 0 0 []) 11)
    ∧ (let o := sent 8 0 0 0 0 0 1 one
       Arrives collecting o 8 ∧ ((collecting.collOf o).any fun e => e.1 = 0) = true ∧ collecting.collLines (collecting.coll 0).desc = 2
        ∧ (∃ c, c ∈ collecting.fab.cmds ∧ c.ctx = 8192 ∧ c.kind = .coll (collecting.coll 0).desc 1 ∧ ∀ e ∈ collecting.fab.cmds, e.ctx = 8192 → e = c)
        ∧ nfld o.aux 12 32 = 0 ∧ (collecting.coll 0).got = [] ∧ UnitsGood o ∧ 2 < nfld (sent 8 0 0 0 (2 * 4096) 0 1 one).aux 12 32 + 1
        ∧ (∃ g u, (collecting.unqueue o).translate 0 0 64 .write = .ok ([g], u))
        ∧ (∀ e ∈ (asked 2 0 0).fab.colls, ¬(e.2.busy = true ∧ bfld e.2.desc 32 12 = nfld o.aux 0 12 ∧ e.2.k = o.opnd1)))
    ∧ Arrives (owning 64 8) (sent 12 0 0 0 0 0 0 []) 12
    ∧ (let a := sent 0x10 0 0 0 0 0x101 0 []
       let r := sent 0x11 0 0 0 0 5 0 []
       Arrives (outstanding 1 0) a 0x10 ∧ Arrives (outstanding 3 0) r 0x11 ∧ (outstanding 1 0).placedOf a.tag = some 0 ∧ (owning 64 8).placedOf a.tag = none)
    ∧ (let m := sent 0x12 0 0 0 0 0 0 []
       let s : State := { owning 64 8 with links := { ual := [(2, { sentMarks := [4] })] } }
       Arrives s m 0x12 ∧ (s.ual 2).sentMarks = [4] ∧ (s.ual 3).sentMarks = [])
    ∧ ((∀ o ∈ (owning 64 8).fab.outs, o.tag ≠ 7) ∧ ((outstanding 7 0).fab.outs.find? fun o => o.tag = 7).isSome = true
      ∧ (∀ o ∈ (outstanding 1 23).fab.outs, ∀ p ∈ o.pkts, p.txn.op ∈ [1, 2, 3, 4, 5, 6, 9, 10, 11] ∧ p.st = .placed 23)
      ∧ (∃ o ∈ (outstanding 7 0).fab.outs, ∃ p ∈ o.pkts, p.txn.op ∉ [1, 2, 3, 4, 5, 6, 9, 10, 11])
      ∧ (∃ o ∈ (outstanding 1 24).fab.outs, ∃ p ∈ o.pkts, p.st = .placed 24)) := by
  and_intros <;> first | decide +kernel | (unfold Arrives; decide +kernel) | (unfold UnitsGood; decide +kernel) | exact ⟨_, .head _, by decide +kernel⟩ | skip
  · obtain ⟨⟨l, u⟩, h, p⟩ := ok_with (o := ((armed 4).unqueue (sent 9 0 0 0 (3 * 65536) 0 64 [unit 5 true])).translateOwn 0 0 64 .write)
      (fun x => decide (x.1.length = 1)) (by decide +kernel)
    obtain ⟨g, rfl⟩ := List.length_eq_one_iff.mp (of_decide_eq_true p)
    exact ⟨g, u, h⟩
  · obtain ⟨⟨l, u⟩, h, p⟩ := ok_with (o := (collecting.unqueue (sent 8 0 0 0 0 0 1 [unit 5 true])).translate 0 0 64 .write)
      (fun x => decide (x.1.length = 1)) (by decide +kernel)
    obtain ⟨g, rfl⟩ := List.length_eq_one_iff.mp (of_decide_eq_true p)
    exact ⟨g, u, h⟩

/-- `owning` with a packet that is the last of an access of strand 0, and its token; the same with another packet out. -/
def covered (more : List OutPkt) : State :=
  let s := owningBut 64 8 fun t => { t with q := { t.q with toks := [(3, { used := true, ids := [5] })] } }
  { s with fab := { outs := [{ tag := 7, org := .access 0 5, part := 0, pkts := { txn := sent 1 0 0 64 0 0 1 [], st := .placed 0 } :: more }] } }

/-- Answers of a packet: of an access and a command, the last and not; a parcel's line that fails, and areas that no page holds. -/
theorem met_RequestsAndAnswers_packets : let k : OutPkt := { txn := sent 1 0 0 64 0 0 1 [], st := .placed 1 }
    (∃ o, ((covered []).fab.outs.find? fun o => o.tag = 7) = some o ∧ o.pkts.length = 1 ∧ o.pkts[0]? ≠ none ∧ o.org = .access 0 5)
    ∧ (∃ o, ((covered [k]).fab.outs.find? fun o => o.tag = 7) = some o ∧ 1 < o.pkts.length ∧ o.pkts[1]? = some k)
    ∧ (∃ y, (covered []).strand? 0 = some y ∧ ∃ e ∈ y.q.toks, e.2.ids.contains 5 = true)
    ∧ (∃ o, ((outstanding 1 0).fab.outs.find? fun o => o.tag = 7) = some o ∧ o.org = .cmd 8192 1)
    ∧ (collecting.fabCmd 8192 1).isSome = true
    ∧ (((owning 64 8).part 0).fbLog.getLsbD 47 = false ∧ ∃ p : Part, p.fbLog.getLsbD 47 = true)
    ∧ ¬UnitsGood (sent 9 0 0 0 (3 * 65536) 0 64 [unit 5 false]) := by
  and_intros <;> first | exact ⟨_, rfl, by decide +kernel⟩ | decide +kernel | (unfold UnitsGood; decide +kernel) | exact ⟨{ fbLog := 2 ^ 47 }, by decide⟩

/-- Walks that end in a fault: of a request area at page 1, and of a parcel armed there. -/
theorem met_RequestsAndAnswers_faults : (∃ f, ((asked 2 0 0).unqueue (sent 6 0 0 0 0 0 0 [unit 5 true])).translate 0 65536 64 .write = .error f)
    ∧ ∃ f, ((armed 4).unqueue (sent 9 0 0 0 (3 * 65536) 0 64 [unit 5 true])).translateOwn 0 65536 64 .write = .error f := by
  constructor
  · obtain ⟨e, h, -⟩ := error_with (o := ((asked 2 0 0).unqueue (sent 6 0 0 0 0 0 0 [unit 5 true])).translate 0 65536 64 .write) (fun _ => true) (by decide +kernel)
    exact ⟨e, h⟩
  · obtain ⟨e, h, -⟩ := error_with (o := ((armed 4).unqueue (sent 9 0 0 0 (3 * 65536) 0 64 [unit 5 true])).translateOwn 0 65536 64 .write) (fun _ => true) (by decide +kernel)
    exact ⟨e, h⟩


/-! #### Links, power -/

/-- A flit. -/
def flit (typ seq ack payload : Nat) (sop eop : Bool) : BitVec 640 :=
  ({ typ := typ, seq := seq, ack := ack, sop := sop, eop := eop, payload := BitVec.ofNat 512 payload,
     lchk := lineCheck (BitVec.ofNat 512 payload) } : FlitF).bits

/-- A check taken byte by byte, with each remainder worked out before the next. -/
def worked (f : Nat → Byte → Nat) : List Byte → Nat → Nat
  | [], c => c
  | b :: t, c =>
    match f c b with
    | 0 => worked f t 0
    | n + 1 => worked f t (n + 1)

theorem worked_cons (f : Nat → Byte → Nat) (b : Byte) (t : List Byte) (c : Nat) : worked f (b :: t) c = worked f t (f c b) := by
  rw [worked]; split <;> simp_all

theorem crc32_worked (l : List Byte) (c : Nat) : crc32 l c = worked (fun c b => crc32Bits 8 (c ^^^ b.toNat)) l c ^^^ 0xFFFFFFFF := by
  induction l generalizing c with
  | nil => rfl
  | cons b t ih => rw [crc32, ih, worked_cons]

theorem crc16_worked (l : List Byte) (c : Nat) : crc16 l c = worked (fun c b => crc16Bits 8 (c ^^^ (b.toNat * 256))) l c := by
  induction l generalizing c with
  | nil => rfl
  | cons b t ih => rw [crc16, ih, worked_cons]

theorem flitOk_worked (f : BitVec 640) :
    flitOk f = decide (worked (fun c b => crc32Bits 8 (c ^^^ b.toNat)) (toBytes 76 (bfld f 0 608)) 0xFFFFFFFF ^^^ 0xFFFFFFFF = bfld f 608 32) := by
  unfold flitOk; rw [crc32_worked]

/-- A flit with its CRC. -/
theorem flit_ok : (∀ typ ∈ [0, 1, 2, 3, 4, 5], flitOk (flit typ 1 0 0 true true) = true) ∧ flitOk 0 = false := by
  simp only [flitOk_worked]; decide +kernel

/-- A Spindle port 0 in a state, one flit in its replay buffer, all its wavelengths healthy or not. -/
def ported (st : Nat) (light : Bool) : State :=
  { owning 64 8 with links :=
      { spn := [(0, { st := st, tx := 0xFFFF, seq := 1, buf := [⟨1, flit 1 1 0 0 true true, none⟩], sentMarks := [4] })]
        rings := if light then (List.range 16).map fun w => (w, { locked := true, pd := 8, pd0 := 8 }) else [] } }

theorem met_Links : let up := ported 2 true
    let hears (s : State) (p typ : Nat) (f : BitVec 640) : Prop :=
      p < 8 ∧ flitOk f = true ∧ flitType f = typ ∧ ((s.spn p).st = 2 ∨ (s.spn p).st = 3)
    ((∀ r ∈ (up.spn 0).buf, r.seq ≠ 5) ∧ ((up.spn 0).buf.findIdx? fun r => r.seq = 1) = some 0 ∧ (up.spn 0).acked ≤ 0)
    ∧ (∀ typ ∈ [0, 1, 2, 3, 4, 5], hears up 0 typ (flit typ 1 0 0 true true)) ∧ hears (ported 3 true) 0 1 (flit 1 1 0 0 true true)
    ∧ ¬hears (ported 0 true) 0 1 (flit 1 1 0 0 true true) ∧ ¬hears up 0 1 0
    ∧ (flitSeq (flit 1 1 0 0 true true) = (up.spn 0).ack + 1 ∧ flitSeq (flit 1 2 0 0 true true) ≠ (up.spn 0).ack + 1)
    ∧ (flitEop (flit 1 1 0 0 true false) = false ∧ flitEop (flit 1 1 0 7 true true) = true ∧ flitSop (flit 1 1 0 7 true true) = true)
    ∧ ((up.spn 0).sentMarks = [4] ∧ ((owning 64 8).spn 0).sentMarks = [])
    ∧ (let v (n : Nat) := (up.takeAck 0 (flit 5 0 0 n false false)).spn 0
       let m (n : Nat) : BitVec 16 := BitVec.ofNat 16 (bfld (flit 5 0 0 n false false) 0 16) &&& ~~~(v n).dis
       (v 7).st = 2 ∧ widthOf (popCount 16 (m 7).toNat) = 0 ∧ (widthOf (popCount 16 (m 0xFFFF).toNat) ≠ 0 ∧ activeOf (m 0xFFFF) = activeOf (v 0xFFFF).tx)
        ∧ widthOf (popCount 16 (m 0x0F).toNat) = 4 ∧ activeOf (m 0x0F) ≠ activeOf (v 0x0F).tx)
    ∧ ((up.spn 0).acked < (up.spn 0).buf.length ∧ ((owning 64 8).spn 0).buf.length ≤ ((owning 64 8).spn 0).acked)
    ∧ ((ported 0 true).spn 0).st = 0 ∧ ((ported 4 true).spn 0).st = 4 ∧ ((ported 3 true).spn 0).st = 3 ∧ ((ported 1 true).spn 0).st = 1
    ∧ (let s : State := { owning 64 8 with links := { spn := [(0, { st := 3 })] } }
       (s.spn 0).st = 3 ∧ (s.spn 0).buf.length ≤ (s.spn 0).acked ∧ (s.spn 0).rx = [])
    ∧ ((∀ w, w < 16 → ((ported 1 true).ring (16 * 0 + w)).lock = true) ∧ popCount 16 ((ported 1 true).spn 0).dis.toNat ≤ 12
      ∧ ((ported 1 true).spn 0).former ≠ some 5 ∧ ((ported 1 true).spn 0).dark = false
      ∧ (({ owning 64 8 with links := { spn := [(0, { st := 1, former := some 5 })] } } : State).spn 0).former = some (BitVec.ofNat 11 5))
    ∧ ((1 : BitVec 16) &&& up.healthy 0 ≠ 0 ∧ (1 : BitVec 16) &&& (ported 2 false).healthy 0 = 0)
    ∧ ((up.ring 0).healthy = true ∧ ((ported 2 false).ring 0).lock = true ∧ ((ported 2 false).ring 0).healthy = false)
    ∧ (activeOf (up.healthy 0) = 0xFFFF ∧ activeOf ((ported 2 false).healthy 0) = 0)
    ∧ ((up.laser 31).en = true ∧ (({ up with links := { lasers := [(31, { en := false })] } } : State).laser 31).en = false ∧ (up.spn (3 / 4)).st = 2
      ∧ (up.spn (31 / 4)).st ≠ 2)
    ∧ ((up.ual 15).st ≠ 2 ∧ (({ up with links := { ual := [(15, { st := 2 })] } } : State).ual 15).st = 2) := by
  refine and_assoc.mp ⟨⟨by decide +kernel, fun typ h => ?_⟩, ⟨by decide, flit_ok.1 1 (by decide), by decide +kernel, .inr (by decide +kernel)⟩,
    fun h => absurd h.2.2.2 (by decide +kernel), by decide +kernel⟩
  exact ⟨by decide, flit_ok.1 typ h, (by decide +kernel : ∀ typ ∈ [0, 1, 2, 3, 4, 5], flitType (flit typ 1 0 0 true true) = typ) typ h, .inl (by decide +kernel)⟩

/-- The line check of a payload that is read whole, and of one whose header does not pass it. -/
theorem met_Links_check : let f := flit 1 1 0 7 true true
    lineCheck (flitPayload f) = bfld f 560 16 ∧ lineCheck (flitPayload (f ^^^ 16)) ≠ bfld (f ^^^ 16) 560 16
    ∧ bfld (flitPayload f) 0 8 < 16 ∧ 16 ≤ bfld (flitPayload (f ^^^ 16)) 0 8 := by
  simp only [lineCheck, crc16_worked]; decide +kernel

/-- A WIDTH flit that widens the active set of a port that sends on the first eight wavelengths, one that narrows it, and one that leaves no set;
masks of the port itself, of a port that is DOWN too. -/
theorem met_Links_width : let half : State := { owning 64 8 with links := { (ported 2 true).links with spn := [(0, { st := 2, tx := 0xFF })] } }
    let w (n : Nat) : BitVec 640 := flit 5 0 0 n false false
    let v (s : State) (n : Nat) := (({ s with free := s.free + 1 } : State).takeAck 0 (w n)).spn 0
    let m (s : State) (n : Nat) : BitVec 16 := BitVec.ofNat 16 (bfld (w n) 0 16) &&& ~~~(v s n).dis
    let up := ported 2 true
    (m half 0xFFFF ≠ (v half 0xFFFF).tx ∧ (v half 0xFFFF).tx &&& ~~~(m half 0xFFFF) = 0 ∧ widthOf (popCount 16 (m half 0xFFFF).toNat) ≠ 0)
    ∧ (¬(m up 0x0F ≠ (v up 0x0F).tx ∧ (v up 0x0F).tx &&& ~~~(m up 0x0F) = 0) ∧ widthOf (popCount 16 (m up 0x0F).toNat) ≠ 0 ∧ (v up 0x0F).st = 2)
    ∧ (widthOf (popCount 16 (m up 7).toNat) = 0 ∧ (v (ported 3 true) 7).st = 3)
    ∧ (activeOf 0xFFFF = activeOf (up.spn 0).tx ∧ activeOf 0x0F ≠ activeOf (up.spn 0).tx ∧ widthOf (popCount 16 0x0F) ≠ 0 ∧ widthOf (popCount 16 1) = 0)
    ∧ (widthOf (popCount 16 (up.healthy 0).toNat) ≠ 0 ∧ widthOf (popCount 16 ((ported 2 false).healthy 0).toNat) = 0) := by
  decide +kernel

/-- A WIDTH flit that narrows the set for a failed laser's wavelengths and for others, with flits to send again and with none; the packet that a send of
the replay buffer belongs to; a laser that feeds wavelengths its port took out. -/
theorem met_Links_masks :
    let port (gone : BitVec 16) (buf : List Replay) : State :=
      { owning 64 8 with links := { (ported 2 true).links with spn := [(0, { st := 2, tx := 0xFFFF, far := 0xFFFF, gone := gone, buf := buf })] } }
    let m (s : State) : BitVec 16 := 0xFF &&& ~~~(s.spn 0).dis &&& ~~~((s.spn 0).gone &&& 0xFF)
    (∀ s ∈ [port 0 [], port 0xFF00 [], port 0 [⟨1, flit 1 1 0 0 true true, none⟩]],
      widthOf (popCount 16 (m s).toNat) ≠ 0 ∧ ¬(m s ≠ (s.spn 0).tx ∧ (s.spn 0).tx &&& ~~~(m s) = 0) ∧ (s.spn 0).far &&& ~~~0xFF ≠ 0)
    ∧ ((port 0xFF00 []).spn 0).far &&& ~~~0xFF &&& ~~~((port 0xFF00 []).spn 0).gone = 0
    ∧ ((port 0 []).spn 0).far &&& ~~~0xFF &&& ~~~((port 0 []).spn 0).gone ≠ 0
    ∧ (let o : OutTxn := { tag := 5, org := .access 0 1, part := 0, pkts := [{ txn := sent 1 0 0 64 0 0 1 [], st := .placed 1, ord := 3 }] }
       ([o].find? fun o => o.pkts.any fun q => decide (q.ord = 3)) = some o ∧ (o.pkts.findIdx? fun q => decide (q.ord = 3)) = some 0)
    ∧ (let w := (port 0x000F []).spn 0
       w.gone &&& ~~~(BitVec.ofNat 16 (15 * 2 ^ (4 * (0 % 4)))) ≠ w.gone ∧ w.gone &&& ~~~(BitVec.ofNat 16 (15 * 2 ^ (4 * (1 % 4)))) = w.gone) := by
  decide +kernel

/-- Wavelengths with light to lose and without, a laser to enable, and lanes of a port that trains. -/
theorem met_Links_light : let up := ported 2 true
    ((up.ring 3).pd0 ≠ 0 ∧ (up.ring 3).pd0.toNat ≤ 8 * (up.ring 3).pd.toNat ∧ 3 / 16 = 0 ∧ (8 : BitVec 16).getLsbD (3 % 16) = true)
    ∧ (∀ k, k < 256 → ((ported 2 false).ring k).pd0 = 0) ∧ (∃ l : Laser, l.en = true) ∧ (∃ l : Laser, l.en = false) ∧ ((up.ual 15).st ≠ 2 ∧ (3 : Nat) < 4) := by
  and_intros <;> first | decide +kernel | exact ⟨{ en := true }, rfl⟩ | exact ⟨{ en := false }, rfl⟩

/-- A clock 31 with a rail, in a state of its sequencer, at and below its target. -/
def clocked (rail seq target cur : Nat) : State :=
  { owning 64 8 with power := { clks := [(31, { rail := rail, seq := seq, target := target, cur := cur, up := decide (cur < target) })] } }

/-- A stack 7 whose die 0 is hot, with a swap of frames 3 and 4 or none. -/
def stacked (swap : Option (Nat × Nat)) : State := { owning 64 8 with power := { hbm := [(7, { hot := 1, swap := swap })] } }

theorem met_PowerAndStacks : (let k := (clocked 945 0 12 12).clk 31
      0 < k.slack ∧ k.rail + 5 ≤ 950 ∧ 950 < ((clocked 946 0 12 12).clk 31).rail + 5 ∧ k.slack + 10 ≤ 40 ∧ 555 ≤ ((clocked 555 0 12 12).clk 31).rail
        ∧ ((clocked 554 0 12 12).clk 31).rail < 555 ∧ k.slack ≤ 39 ∧ 39 < k.slack + 10)
    ∧ (let k := (clocked 800 0 12 12).clk 31
       k.seq = 0 ∧ (0 : Nat) * 256 < k.thr * 524288 ∧ k.fmin < k.target ∧ k.thr * 524288 < 524288 * 256 ∧ k.target < k.fmax ∧ k.cur = k.target)
    ∧ ((clocked 800 1 13 12).clk 31).seq = 1 ∧ ((clocked 800 2 13 12).clk 31).up = true ∧ ((clocked 800 2 12 13).clk 31).up = false
    ∧ ((clocked 800 3 12 12).clk 31).seq = 3
    ∧ (let s := owning 64 8
       let v : W64 := 0x801004
       (s.part 0).st = 1 ∧ (s.part 0).halves.getLsbD 62 = true ∧ bfld v 24 40 = 0 ∧ bfld v 0 8 = 4 ∧ bfld v 8 8 = 16 ∧ (s.part 1).st ≠ 1)
    ∧ ((List.replicate 16 86).length = 16 ∧ 85 < (List.replicate 16 86).getD 0 0 ∧ ((stacked none).stack 7).hot.getLsbD 0 = true
      ∧ 83 ≤ (List.replicate 16 83).getD 0 0 ∧ (List.replicate 8 4096000).length = 8)
    ∧ (((owning 64 8).parts.map Prod.fst).Nodup ∧ 0 ∈ (owning 64 8).parts.map Prod.fst)
    ∧ ((owning 64 8).part 0).st = 1 ∧ bfld (1024 : W64) 10 54 = 1
    ∧ (let others := ((owning 64 8).parts.filter fun e => decide (e.1 ≠ 0)).map fun e => bfld e.2.share 0 10
       bfld (1023 : W64) 10 54 = 0 ∧ others.sum + (1023 : W64).toNat ≤ 1024)
    ∧ (let s : State := { stacked none with
         mem := { (stacked none).mem with hits := [(3, 4096)] }, power := { (stacked none).power with layout := [(3, 112), (4, 113)] } }
       let k := s.stack 7
       s.power.thr.toNat ≤ 4096 ∧ 0 < s.power.thr.toNat ∧ k.swap = none ∧ SMap.get 0 s.mem.hits 3 = 4096 ∧ SMap.get 0 s.mem.hits 4 = 0
        ∧ s.power.dieOf (k.placeOf 3) = 16 * 7 + 0 ∧ s.power.dieOf (k.placeOf 4) = 16 * 7 + 1 ∧ k.hot.getLsbD 1 = false)
    ∧ (let s := stacked none
       s.power.promote = true ∧ (s.stack 7).swap = none ∧ (s.stack 7).hot.getLsbD 1 = false ∧ 3 ∉ s.mem.locked ∧ s.mem.scrubs = []
        ∧ (stacked (some (3, 4))).power.promote = true ∧ ((stacked (some (3, 4))).stack 7).swap = some (3, 4))
    ∧ ((owning 64 8).entriesHeld = 1 ∧ bfld (1 : W64) 0 16 = 1 ∧ bfld (1 : W64) 16 48 = bfld (owning 64 8).chuck.ctx 16 48) := by
  and_intros <;> decide +kernel

/-! #### Queues and management -/

/-- A packet of a type and subtype with its body. -/
def pk (ty sub q0 q1 q2 q3 q4 q5 : Nat) : Pkt :=
  { hdr := BitVec.ofNat 128 (ty + sub * 2 ^ 8), q0 := BitVec.ofNat 64 q0, q1 := BitVec.ofNat 64 q1, q2 := BitVec.ofNat 64 q2, q3 := BitVec.ofNat 64 q3,
    q4 := BitVec.ofNat 64 q4, q5 := BitVec.ofNat 64 q5 }

/-- A queue of sixteen entries with its ring in host memory or at a VA. -/
def ring (fn base tail : Nat) (inHost : Bool) : Queue :=
  { qrec := BitVec.ofNat 512 (base + b2n inHost * 2 ^ 84 + 4 * 2 ^ 85), fn := fn, en := true, tail := tail }

/-- Queue 1 with a packet. -/
def ringed (q : Queue) : State :=
  { ownAt 64 8 256 256 oneLpb with host := { queues := [(1, q)], vfmap := [(190, some 0)], ats := [(q.pasid, q.hostPage)] } }

/-- Queue 1 in host memory. -/
def inHost1 : State := ringed (ring 0 0 1 true)

/-- How a ring is read. -/
def ringKind (s : State) : Nat :=
  match s.ringPkt 1 with
  | .error (.pageIn _ _) => 1
  | .error .frozen => 2
  | .error (.mem _ _) => 3
  | .error (.parcel _ _) => 4
  | .ok _ => 0

theorem fetched_inHost1 (p : Pkt) : Fetched inHost1 1 p inHost1 := ⟨by decide +kernel, .inl ⟨by decide +kernel, by decide +kernel, rfl⟩⟩

/-- `inHost1` with a WAIT node for 5, of a subtype, and the counter of timeline 0. -/
def waitOn (sub c : Nat) : State :=
  { inHost1 with chuck := { nodes := [(0, { kind := .wait, st := .active, sub := sub, body := [0, 5] })] },
                 ctxs := [(0, { counter := BitVec.ofNat 64 c })] }

theorem met_HostPackets : let s := inHost1
    let dev (base : Nat) := ringed (ring 0 base 1 false)
    (∀ p, Fetched s 1 p s) ∧ (s.nextQueue ≠ some 0 ∧ pktType (pk 1 0 0 0 0 0 0 0) = 1 ∧ pktType (pk 8 0 0 0 0 0 0 0) = 8)
    ∧ ((dev 0).nextQueue = some 1 ∧ ((dev 0).queue 1).inHost = false ∧ ringKind { dev 0 with mem := leafed (4 * 65536 + 15) } = 1 ∧ ringKind (dev (2 ^ 53)) = 3 ∧ ringKind (dev 0) = 0
      ∧ ringKind { dev 0 with mem := { (dev 0).mem with migs := (moving 3 0 true).mem.migs } } = 2)
    ∧ (∃ r u, (dev 64).ringPkt 1 = .ok (r, u) ∧ r ≠ pk 1 0 0 0 0 0 0 0)
    ∧ (bfld (pk 1 1 256 0 0 0 0 0).hdr 8 120 ≠ 0 ∧ bfld (pk 1 0 256 0 0 0 0 0).hdr 8 120 = 0 ∧ (pk 1 0 256 0 0 0 0 0).q0.toNat % 64 = 0
      ∧ (pk 1 0 8 0 0 0 0 0).q0.toNat % 64 ≠ 0)
    ∧ (∃ w, s.readFor (s.queue 1).pasid 256 256 = .ok (oneLpb, w) ∧ w.queue 1 = s.queue 1 ∧ w.chuck = s.chuck ∧ w.parts = s.parts)
    ∧ (lpbFieldOk 0 256 (BitVec.ofNat 2048 oneLpb) = true ∧ lpbRangeOk (BitVec.ofNat 2048 oneLpb) = true ∧ lpbFieldOk 0 256 0 = false
      ∧ lpbFieldOk 0 256 1 = true ∧ lpbRangeOk 1 = false)
    ∧ ((s.part 0).nodeLo = 0 ∧ (s.part 0).nodeN = 65536 ∧ (s.node 0).st = .free ∧ (s.node 0).ctr + 1 ≠ 0 ∧ ((placing 1).node 0).st ≠ .free)
    ∧ (let p := pk 3 0 64 1 0 0 0 0
       let q : Pkt := { p with hdr := p.hdr ||| BitVec.ofNat 128 (2 ^ 32) }
       bfld p.hdr 52 12 = 0 ∧ bfld p.hdr 48 4 ≤ 4 ∧ pktNode q = 0 ∧ pktNpred q = 1 ∧ pktSucc q = [] ∧ pktSub q ≤ 1 ∧ q.q0.toNat % 8 = 0)
    ∧ (let t := waitOn
       ((t 1 5).node 0).kind = .wait ∧ ((t 1 5).node 0).st = .active ∧ ((t 1 5).node 0).sub = 1 ∧ 5 ≤ ((t 1 5).ctx 0).counter.toNat
        ∧ ((t 1 4).ctx 0).counter.toNat < 5 ∧ ((t 0 0).node 0).sub ≠ 1 ∧ (∃ x u, (t 0 0).readFor 0 0 8 = .ok (x, u)))
    ∧ ((s.queue 1).en = true ∧ (s.queue 1).tail ≤ 1 ∧ (s.queue 1).qrec.getLsbD 83 = false ∧ (s.queue 1).head + 2 ^ bfld (s.queue 1).qrec 85 5 = 16
      ∧ s.host.pend = [] ∧ ({ ring 0 0 1 true with qrec := (ring 0 0 1 true).qrec ||| BitVec.ofNat 512 (2 ^ 83) } : Queue).qrec.getLsbD 83 = true)
    ∧ (let q := s.queue 1
       q.en = true ∧ q.err = false ∧ q.inHost = true ∧ q.head < q.tail ∧ q.stopped = false ∧ q.down = false
        ∧ (({ q with stopped := true, down := true } : Queue)).down = true ∧ ((dev 0).queue 1).inHost = false)
    ∧ (pktType (pk 6 3 0 0 0 0 0 0) = 6 ∧ pktSub (pk 6 3 0 0 0 0 0 0) = 3) := by
  and_intros <;> first | exact fetched_inHost1 | decide +kernel | skip
  · obtain ⟨⟨r, u⟩, h, p⟩ := ok_with (o := (ringed (ring 0 64 1 false)).ringPkt 1) (fun x => decide (x.1 ≠ pk 1 0 0 0 0 0 0 0)) (by decide +kernel)
    exact ⟨r, u, h, of_decide_eq_true p⟩
  · obtain ⟨⟨v, w⟩, h, p⟩ := ok_with (o := inHost1.readFor (inHost1.queue 1).pasid 256 256)
      (fun x => decide (x.1 = oneLpb ∧ x.2.queue 1 = inHost1.queue 1 ∧ x.2.chuck = inHost1.chuck ∧ x.2.parts = inHost1.parts)) (by decide +kernel)
    obtain ⟨rfl, p⟩ := of_decide_eq_true p
    exact ⟨w, h, p⟩
  · obtain ⟨⟨x, u⟩, h, -⟩ := ok_with (o := (waitOn 0 0).readFor 0 0 8) (fun _ => true) (by decide +kernel)
    exact ⟨x, u, h⟩

/-- `inHost1` with no page translated, and requests out. -/
def asking (l : List Ask) : State := { inHost1 with host := { inHost1.host with ats := [], asks := l } }

/-- Queue 1 lacks a translation and asks once; an answer comes for a queue that still fetches, for one that does not, and for one that is down. -/
theorem met_HostPackets_translations : let q := inHost1.queue 1
    ((asking []).nextQueue = none ∧ (asking []).served 1 = false ∧ ((asking []).queue 1).inHost = true ∧ (asking []).translated 1 = false
      ∧ (asking []).fnOpen q = true)
    ∧ (q.en = true ∧ q.err = false ∧ q.inHost = true ∧ q.qrec.getLsbD 83 = false ∧ q.head < q.tail ∧ q.stopped = false)
    ∧ ((∀ e ∈ (asking []).host.asks, e.queue = 1 → e.live = false ∨ e.late = true)
      ∧ ∃ e ∈ (asking [⟨1, 0, false, false, true⟩]).host.asks, e.queue = 1 ∧ ¬(e.live = false ∨ e.late = true))
    ∧ (∀ pri, (asking []).askOf 1 pri = none ∧ ∀ late live, (asking [⟨1, 0, pri, late, live⟩]).askOf 1 pri = some ⟨1, 0, pri, late, live⟩)
    ∧ (q.pasid = 0 ∧ (asking [⟨1, 7, false, false, true⟩]).askOf 1 false = some ⟨1, 7, false, false, true⟩)
    ∧ ¬(((ringed (ring 0 0 0 true)).queue 1).head < ((ringed (ring 0 0 0 true)).queue 1).tail) := by
  decide +kernel

/-- A handler packet that waits for a queue that is none, for one that drops it, for a full one, and for one with room; a packet that waits; a node with
nothing to wait for. -/
theorem met_HostPackets_handlers :
    let bound (q : Queue) : State := { inHost1 with host := { inHost1.host with queues := [(1, q)], pend := [(some 0, 1, 0)] } }
    let handler (head tail : Nat) : Queue := { ring 0 0 tail true with head := head, qrec := BitVec.ofNat 512 (2 ^ 83 + 2 ^ 84 + 4 * 2 ^ 85) }
    (∀ q ∈ [{}, handler 0 0, { handler 0 0 with down := true }, handler 16 0], (bound q).host.pend = [(some 0, 1, 0)])
    ∧ (bound {}).isHandler ((bound {}).queue 1) = false
    ∧ (bound { handler 0 0 with down := true }).isHandler { handler 0 0 with down := true } = true ∧ ({ handler 0 0 with down := true } : Queue).drops = true
    ∧ (bound (handler 16 0)).isHandler (handler 16 0) = true ∧ (handler 16 0).drops = false ∧ (handler 16 0).isFull = true
    ∧ (bound (handler 0 0)).isHandler (handler 0 0) = true ∧ (handler 0 0).isFull = false
    ∧ (let s : State := { inHost1 with host := { inHost1.host with queues := [(1, { ring 0 0 1 true with waits := true })] } }
       s.nextQueue = none ∧ s.served 1 = true ∧ (s.queue 1).en = true)
    ∧ (((stand 5 3).node 0).ctr + BitVec.ofNat 16 0 = 0 ∧ bfld (BitVec.ofNat 2048 (2 ^ 32)) 32 32 ≠ 0) := by
  decide +kernel

/-- `inHost1` with slot 3 armed or not, partition 1 free, PASID 0's tables, and frame 5 free to migrate to. -/
def slotted (st : Nat) (busy : Bool) : State :=
  let s : State := { inHost1 with slots := [(3, { st := st, size := 4096 })] }
  if busy then s.setMe { s.me with q := { s.me.q with accs := [{ id := 1, q := .load, act := .load [⟨0, 262144, 8, 0⟩] true 64, slot := some 3 }] } } else s

theorem met_Management : let s := inHost1
    (∀ sub ∈ List.range 19, sub ≠ 0 → pktType (pk 6 sub 64 0 0 0 0 0) = 6 ∧ MgmtGood s 1 (pk 6 sub 64 0 0 0 0 0) sub)
    ∧ (∀ p, Fetched s 1 p s) ∧ (s.nextQueue ≠ some 0 ∧ pktType (pk 5 1 0 0 0 0 0 0) ≠ 6)
    ∧ (let v := ringed (ring 192 0 1 true)
       v.nextQueue = some 1 ∧ (v.queue 1).inHost = true ∧ (v.queue 1).isPf = false)
    ∧ ((pk 6 1 0 0 0 0 0 0).q0 = 0 ∧ (pk 6 1 4 0 0 0 0 0).q0.toNat % 8 ≠ 0 ∧ s.isLocal (pk 6 1 (2 ^ 53) 0 0 0 0 0).q0.toNat = false
      ∧ (pk 6 1 64 0 0 0 0 1).q5 ≠ 0)
    -- register writes
    ∧ (bfld (0x8100000 : W64) 6 10 = 0 ∧ bfld (0x8100000 : W64) 28 4 = 0 ∧ bfld (0x8100000 : W64) 16 12 = 0x810 ∧ bfld (0x8110000 : W64) 16 12 = 0x811
      ∧ bfld (0x8120000 : W64) 16 12 = 0x812 ∧ s.sysWrite 0 0 0x7FF 0 = none ∧ (s.sysWrite 0 0 0x810 (BitVec.ofNat 64 (2 ^ 32 - 1))).isSome = true
      ∧ (s.sysWrite 0 0 0x812 (BitVec.ofNat 64 (2 ^ 32))).isNone = true ∧ bfld (64 : W64) 6 10 ≠ 0)
    -- pre-emption
    ∧ (bfld (3 : W64) 2 6 = 0 ∧ bfld (3 : W64) 9 55 = 0 ∧ (63 : W64).toNat < 2 ^ 6 ∧ ¬((64 : W64).toNat < 2 ^ 6) ∧ bfld (4 : W64) 2 6 ≠ 0)
    -- nodes
    ∧ ((s.node 0).st = .free ∧ (placing 1).nodeBusy 0 = false ∧ ((placing 1).node 0).st ≠ .free
      ∧ ∃ e ∈ (placing 1).strands, e.2.id.launch.toNat = 0 ∧ e.2.place.resident = true)
    -- leases and migration
    ∧ (bfld (2 ^ 20 : W64) 20 44 ≠ 0 ∧ bfld (2 ^ 20 - 1 : W64) 20 44 = 0 ∧ (65536 : W64).toNat % 65536 = 0 ∧ bfld (2 ^ 33 - 1 : W64) 33 31 = 0)
    ∧ ((s.migrate 0 65536 5).isNone = true ∧ (s.mem.walk 0 0 .read).isOk = true ∧ bfld (2 ^ 32 : W64) 32 32 ≠ 0)
    ∧ ((2 ^ 23 - 1 : W64).toNat < 2 ^ 23 ∧ 2 ^ 23 ≤ (2 ^ 23 : W64).toNat)
    -- slots and routes
    ∧ ((slotted 1 true).slotBusy 3 = true ∧ (slotted 1 false).slotBusy 3 = false ∧ ((slotted 0 false).slot 3).st = 0 ∧ (4095 : W64).toNat < 4096)
    ∧ ((2047 : W64).toNat < 2048 ∧ bfld (0x1F17 : W64) 13 51 = 0 ∧ bfld (0x1F17 : W64) 5 3 = 0 ∧ bfld (0x1F17 : W64) 0 5 = 23 ∧ bfld (0x1F17 : W64) 8 5 = 31
      ∧ bfld (24 : W64) 0 5 = 24)
    -- partitions
    ∧ (let lo : W64 := 0
       (s.part 1).st = 0 ∧ (1 : W64).toNat < 64 ∧ lo.toNat + (65536 : W64).toNat ≤ 65536 ∧ (∃ e ∈ s.parts, e.1 ≠ 1 ∧ e.2.halves &&& 1 ≠ 0)
        ∧ (let t : State := { s with parts := [(0, { owner with halves := 2, nodeN := 8 })] }
           ∀ e ∈ t.parts, e.1 ≠ 1 → e.2.halves &&& 1 = 0 ∧ (e.2.nodeN = 0 ∨ e.2.nodeLo + e.2.nodeN ≤ 8 ∨ 8 + 8 ≤ e.2.nodeLo)))
    ∧ ((s.part 0).st = 1 ∧ (∀ e ∈ s.parts, e.1 = 0) ∧ (s.assignTo 0 1 0 64).isSome = true
      ∧ (s.assignTo 0 7 0 1).isNone = true ∧ (s.assignTo 0 1 1 64).isNone = true)
    -- queues, functions, PASIDs
    ∧ (bfld (2 : W64) 0 12 = 2 ∧ bfld (193 * 65536 : W64) 16 8 ≤ 193 ∧ (s.queue 2).en = false ∧ (s.queue 1).en = true
      ∧ (∃ v w, s.readFor (s.queue 1).pasid 256 64 = .ok (v, w) ∧ w.recordOk (BitVec.ofNat 512 v) = false)
      ∧ s.recordOk (BitVec.ofNat 512 (2 ^ 83 + 4 * 2 ^ 85)) = true)
    ∧ ((191 : W64).toNat < 192 ∧ (63 : W64).toNat < 64 ∧ (2 ^ 20 - 1 : W64).toNat < 2 ^ 20 ∧ (4095 : W64).toNat < 4096)
    -- firmware and attestation
    ∧ ((∃ v w, s.readFor (s.queue 1).pasid 256 128 = .ok (v, w)) ∧ s.host.pending = none ∧ ∃ v w, s.readFor (s.queue 1).pasid 256 32 = .ok (v, w)) := by
  and_intros <;> first | exact fetched_inHost1 | decide +kernel | (unfold MgmtGood; decide +kernel) | skip
  · obtain ⟨⟨v, w⟩, h, p⟩ := ok_with (o := inHost1.readFor (inHost1.queue 1).pasid 256 64) (fun x => !(x.2.recordOk (BitVec.ofNat 512 x.1)))
      (by decide +kernel)
    exact ⟨v, w, h, by simpa using p⟩
  · obtain ⟨⟨v, w⟩, h, -⟩ := ok_with (o := inHost1.readFor (inHost1.queue 1).pasid 256 128) (fun _ => true) (by decide +kernel)
    exact ⟨v, w, h⟩
  · obtain ⟨⟨v, w⟩, h, -⟩ := ok_with (o := inHost1.readFor (inHost1.queue 1).pasid 256 32) (fun _ => true) (by decide +kernel)
    exact ⟨v, w, h⟩

/-- A completion at VA 64 of queue 1. -/
def comp64 : Comp := { va := 64, code := 0, pasid := 0, part := 0, queue := 1, first := 0, off := 0 }

/-- `inHost1` with a scrub of frame 9, a teardown of PASID 3, a completion that waits, a patch set, a report, and two waiting words, the second of
another order. -/
def pendingAll : State :=
  { inHost1 with
    mem := { inHost1.mem with scrubs := [(9, comp64)] },
    host := { inHost1.host with
              downs := [(3, comp64)], queues := [(1, { ring 0 0 1 true with comps := [comp64] })], pending := some { len := 0, image := 0 },
              attests := [{ report := 256, comp := comp64, body := 0 }] },
    words := [{ part := 0, pasid := 0, va := 65536, len := 8, val := 1, add := false, after := .nothing },
              { part := 0, pasid := 0, va := 64, len := 8, val := 1, add := false, after := .signal 2 },
              { part := 0, pasid := 0, va := 2 ^ 53, len := 8, val := 1, add := false, after := .launch 2 }] }

/-- How a word write ends. -/
def wordKind : WordRes → Nat
  | .ok _ => 0
  | .stall _ => 1
  | .fail _ _ _ => 2

/-- A write that translates to one good run. -/
def runs1 (o : Except VFault (List Seg × State)) (n : Nat) : Bool :=
  match o with
  | .ok ([g], u) => g.off = 0 && g.len = n && (linesOf g.pa n).all fun l => !u.mem.lineBad l
  | _ => false

theorem of_runs1 {o : Except VFault (List Seg × State)} {n : Nat} (h : runs1 o n = true) : ∃ g u, o = .ok ([g], u) ∧ SegGood u.mem g n := by
  unfold runs1 at h
  split at h
  · next g u =>
    simp only [Bool.and_eq_true, decide_eq_true_eq, List.all_eq_true, Bool.not_eq_true'] at h
    exact ⟨g, u, rfl, h.1.1, h.1.2, h.2⟩
  · cases h

theorem met_HostSide : let s := pendingAll
    ((s.mem.scrubs.find? fun e => e.1 = 9) = some (9, comp64) ∧ 9 ∉ s.mem.locked ∧ ∀ e ∈ inHost1.mem.scrubs, e.1 ≠ 9)
    ∧ (let t : State := { inHost1 with parts := [(1, { st := 2 })] }
       (t.part 1).st = 2 ∧ (∀ e ∈ t.strands, ¬(e.2.id.part = 1 ∧ e.2.place.resident = true)) ∧ t.partBusy 1 = false ∧ (t.part 0).st ≠ 2)
    ∧ ((s.host.downs.find? fun e => e.1 = 3) = some (3, comp64) ∧ ∀ e ∈ inHost1.host.downs, e.1 ≠ 3)
    ∧ ((s.queue 1).comps = [comp64] ∧ (s.queue 0).comps = [])
    ∧ (s.isLocal comp64.va.toNat = true ∧ ∃ g u, s.translate comp64.pasid comp64.va.toNat 8 .write = .ok ([g], u) ∧ SegGood u.mem g 8)
    ∧ (s.host.pending = some { len := 0, image := 0 } ∧ inHost1.host.pending = none)
    ∧ (s.host.attests = [{ report := 256, comp := comp64, body := 0 }] ∧ inHost1.host.attests = []
      ∧ ∃ g u, ({ s with host := { s.host with attests := [] } } : State).translate 0 256 256 .write = .ok ([g], u) ∧ SegGood u.mem g 256)
    ∧ (s.words.length ≤ 3 ∧ (∀ k < 3, ∀ v ∈ s.words.take k, ∀ w ∈ s.words[k]?, v.after ≠ w.after)
      ∧ (s.words[1]?.map fun w => wordKind (({ s with words := s.words.eraseIdx 1 } : State).wordWrite w)) = some 0
      ∧ (s.words[2]?.map fun w => wordKind (({ s with words := s.words.eraseIdx 2 } : State).wordWrite w)) = some 2
      ∧ (s.words[0]?.map fun w => wordKind (({ moving 3 0 true with words := [] } : State).wordWrite { w with va := 0 })) = some 1)
    ∧ (s.strand? 1 = none ∧ (∃ y, s.strand? 0 = some y ∧ y.sch.saving = false)
      ∧ ∃ y, (standBut 5 3 fun t => { t with sch := { t.sch with saving := true } }).strand? 0 = some y ∧ y.sch.saving = true)
    ∧ (let b : List Byte := [1, 2]
       2 ^ 39 - 2 + b.length ≤ 2 ^ 39 ∧ (∀ l, l ∈ linesOf (2 ^ 39 - 2) 2 → s.mem.lineBad l = false ∧ s.mem.frameBusy (l / 1024) = false)
        ∧ 2 ^ 39 < 2 ^ 39 - 1 + b.length ∧ (List.replicate 64 (0 : Byte)).length = 64 ∧ (List.replicate 8 (0 : Byte)).length = 8) := by
  and_intros <;> first | exact of_runs1 (by decide +kernel) | exact ⟨_, rfl, by decide +kernel⟩ | decide +kernel

/-- Device registers of a partition that is live and of one that is not, a node that is DONE, a translation that an INVAL drops, and an image as
R348 lays it out. -/
theorem met_Management_rest : let s := inHost1
    ((s.part 0).st = 1 ∧ (s.part 1).st ≠ 1 ∧ (5 : W64).toNat < 2 ^ 32)
    ∧ ((({ s with chuck := { s.chuck with nodes := [(0, { st := .done })] } } : State).node 0).st = .done)
    ∧ ((cached s).mem.tlb ≠ [] ∧ ∀ e ∈ s.parts, e.1 ≠ 0 → ∀ x, x < 0 + 64 → e.2.fab.getLsbD x = false)
    ∧ (let n := 1152
       1152 ≤ n ∧ n % 4 = 0 ∧ n ≤ 1152 + 4 * 1024 ∧ ∀ k, k < 256 → nfld 0 (8 * 64 + 32 * k + 22) 9 = 0) := by
  decide +kernel

/-- Patches that name a word and not, a frame that is busy, words after others that wait, a window each, and what lies outside them. -/
theorem met_HostSide_rest : let s := pendingAll
    let patched : State := { s with host := { s.host with patches := [(0, BitVec.ofNat 32 (2 ^ 31 + 7 * 2 ^ 12 + 5))] } }
    (((SMap.get 0 patched.host.patches 0).getLsbD 31 = true ∧ bfld (SMap.get 0 patched.host.patches 0) 0 12 = 5)
      ∧ ∀ k, k < 256 → ¬((SMap.get 0 s.host.patches k).getLsbD 31 = true ∧ bfld (SMap.get 0 s.host.patches k) 0 12 = 5))
    ∧ (∃ l ∈ linesOf (9 * 65536) 8, ({ s with mem := { s.mem with locked := [9] } } : State).mem.frameBusy (l / 1024) = true)
    ∧ ((List.replicate 2 (0 : Byte)).length = 2 ∧ ¬(2 ^ 42 + 2 ≤ 2 ^ 39) ∧ ([] : List Byte).length = 0 ∧ 2 ^ 20 - 1 < 2 ^ 20) := by
  decide +kernel


/-! #### The machine -/

/-- R80, R82: words that decode, a short and a long form. -/
theorem met_DecodeEncode : isEvent (.mulh ⟨55, 0, 47, 2, true, true⟩) = false ∧ (Instr.mulh ⟨55, 0, 47, 2, true, true⟩).wf = true
    ∧ decodeInstr 0x00431054 0 = .ok (.add { d := 3, a := 4, b := 5, pb := 1, ru := false, u := false })
    ∧ decodeInstr 0x8C810830 0x01000000 = .ok (.sel { d := 1, a := 2, b := 3, c := 4, pb := 0, ru := false, mod := 0 })
    ∧ isEvent (.sel { d := 1, a := 2, b := 3, c := 4, pb := 0, ru := false, mod := 0 }) = false
    ∧ (Instr.sel { d := 1, a := 2, b := 3, c := 4, pb := 0, ru := false, mod := 0 }).wf = true := by
  exact ⟨by decide +kernel, by decide +kernel, rfl, rfl, by decide +kernel⟩

/-- A placed packet whose first word is given, the rest `NOP`, with two operand file entries. -/
def issuing (w : W32) : State :=
  let s := State.reset.placed (0x6F0000006F000000#64 ++ w)
  s.setMe { s.me with files := { s.me.files with o := [(1, 4), (2, 5)] } }

/-- The state as a strand begins to issue. -/
def atIssue (s : State) : State := { s with turn := s.turn + 1, cur := 0, issue := { wi := 0xFF } }

theorem runWord_all {p : Sys2Proof.Part} {i : Instr} {s v : State} (h : runWord p i s = .all v) :
    exec i (s.atWord p) = .next v ∧ v.issue.abort = none := by
  unfold runWord at h
  split at h
  · next w e =>
    split at h
    · cases h
    · next e2 => cases h; exact ⟨e, e2⟩
  all_goals cases h

theorem runWord_own {p : Sys2Proof.Part} {i : Instr} {s : State} {n : Nat} {b : W32} {l : List (Nat × Nat)}
    (h : runWord p i s = .stopped .own n b l) : ∃ w, exec i (s.atWord p) = .next w ∧ w.issue.abort = some .own := by
  unfold runWord at h
  split at h
  · next w e =>
    split at h
    · next x e2 => injection h with h1; exact ⟨w, e, by rw [e2, h1]⟩
    · cases h
  all_goals cases h

theorem ranAll_of (l : List (Sys2Proof.Part × Instr)) : ∀ {s u : State}, runWords l s = .all u → RanAll l s u := by
  induction l with
  | nil => intro s u h; cases h; rfl
  | cons e r ih =>
    obtain ⟨p, i⟩ := e
    intro s u h
    unfold runWords runAfterOwn at h
    cases e1 : runWord p i s with
    | all v =>
      rw [e1] at h
      obtain ⟨a, b⟩ := runWord_all e1
      exact ⟨v, .inl ⟨a, by simp [b]⟩, b, ih h⟩
    | ends o => rw [e1] at h; cases h
    | stopped x n w k =>
      rw [e1] at h
      cases x <;> try (cases h; done)
      obtain ⟨y, f, g⟩ := runWord_own e1
      cases e2 : runWord p i s.performOwn with
      | all v =>
        rw [e2] at h
        obtain ⟨a, b⟩ := runWord_all e2
        exact ⟨v, .inr ⟨y, f, g, a⟩, b, ih h⟩
      | ends o => rw [e2] at h; cases h
      | stopped x n w k => rw [e2] at h; cases x <;> cases h

/-- The bundle of an issuing state decodes and begins, as `step` has it. -/
def begun (s : State) : Option (List (Sys2Proof.Part × Instr) × Nat × State) :=
  let s0 := atIssue s
  let m := s0.me
  match Op.fetch s0 with
  | .error _ => none
  | .ok (p, s1) =>
    if s1.me.win.ep = true then none else
    match decodeBundle (s0.decCtx m) (pktWords p) m.wi with
    | (.error _, _) => none
    | (.ok is, next) =>
      match Op.begin ((({ s1 with issue := { pos := s1.me.posAt next, wi := s1.me.wi, word := (pktWords p).getD s1.me.wi 0 } } : State)).setMe { s1.me with pkt := some p }) with
      | .error _ => none
      | .ok (_, s3) => some (is, next, s3)

/-- What `StepRunsBundle` asks of a state whose bundle runs. -/
def Begins (s : State) (is : List (Sys2Proof.Part × Instr)) (next : Nat) (s3 : State) : Prop :=
  let s0 := atIssue s
  let m := s0.me
  s.agenda = [] ∧ s.turn % 2 = 0 ∧ State.issueOrder { s with turn := s.turn + 1 } = [0] ∧ m.sch.forced = false ∧ (s.part m.id.part).st ≠ 2
    ∧ ∃ p s1, s1.me.win.ep = false ∧ Op.fetch s0 = .ok (p, s1) ∧ decodeBundle (s0.decCtx m) (pktWords p) m.wi = (.ok is, next)
      ∧ Op.begin ((({ s1 with issue := { pos := s1.me.posAt next, wi := s1.me.wi, word := (pktWords p).getD s1.me.wi 0 } } : State)).setMe { s1.me with pkt := some p })
        = .ok ((), s3)

theorem begins_of {s : State} (h : s.agenda = [] ∧ s.turn % 2 = 0 ∧ State.issueOrder { s with turn := s.turn + 1 } = [0] ∧ (atIssue s).me.sch.forced = false
    ∧ (s.part (atIssue s).me.id.part).st ≠ 2) {is next s3} (g : begun s = some (is, next, s3)) : Begins s is next s3 := by
  refine ⟨h.1, h.2.1, h.2.2.1, h.2.2.2.1, h.2.2.2.2, ?_⟩
  unfold begun at g
  simp only at g
  split at g
  · cases g
  · next p s1 e1 =>
    split at g
    · cases g
    · next e0 =>
      split at g
      · cases g
      · next is' next' e2 =>
        split at g
        · cases g
        · next s3' e3 =>
          simp only [Option.some.injEq, Prod.mk.injEq] at g
          obtain ⟨rfl, rfl, rfl⟩ := g
          exact ⟨p, s1, by simpa using e0, e1, e2, e3⟩

/-- A bundle whose words all run. -/
def runsAll (x : List (Sys2Proof.Part × Instr) × Nat × State) : Bool :=
  match runWords x.1 x.2.2 with
  | .all _ => true
  | _ => false

/-- A bundle of one `TRAP`, which stops. -/
def stopsAll (x : List (Sys2Proof.Part × Instr) × Nat × State) : Bool :=
  match x.1 with
  | [(q, .trap n)] =>
    match exec (.trap n) (x.2.2.atWord q) with
    | .next v => (v.issue.abort.map fun y => !y.isStall).getD false
    | _ => false
  | _ => false

theorem some_with {α : Type} {o : Option α} {p : α → Bool} (h : o.any p = true) : ∃ a, o = some a ∧ p a = true := by
  cases o with
  | none => cases h
  | some a => exact ⟨a, rfl, h⟩

/-- A bundle that begins and runs, one that stops, a packet at hand or none, and inputs that are events or not. -/
theorem met_StepRunsBundle : (∃ is next s3 u, Begins (issuing 0x0070C720) is next s3 ∧ RanAll is s3 u)
    ∧ (∃ q n next s3 v x, Begins (issuing 0x70000009) [(q, .trap n)] next s3 ∧ exec (.trap n) (s3.atWord q) = .next v ∧ v.issue.abort = some x
      ∧ x.isStall = false)
    ∧ ((issuing 0x0070C720).view.loop.pend = false ∧ (stand 5 3).view.pkt = none ∧ (standBut 5 3 fun t => { t with pkt := some 7 }).view.pkt = some 7)
    ∧ ((stand 5 3).me.loop.act = false ∧ isEvent .gangPlacement = true ∧ isEvent .nop = false) := by
  refine ⟨?_, ?_, by decide +kernel⟩
  · have h : (begun (issuing 0x0070C720)).any runsAll = true := by decide +kernel
    obtain ⟨⟨is, next, s3⟩, e, p⟩ := some_with h
    unfold runsAll at p
    split at p
    · next u e1 => exact ⟨is, next, s3, u, begins_of (by decide +kernel) e, ranAll_of is e1⟩
    · cases p
  · have h : (begun (issuing 0x70000009)).any stopsAll = true := by decide +kernel
    obtain ⟨⟨is, next, s3⟩, e, p⟩ := some_with h
    unfold stopsAll at p
    split at p
    · next q n e0 =>
      split at p
      · next v e1 =>
        cases e2 : v.issue.abort with
        | none => rw [e2] at p; cases p
        | some x =>
          rw [e2] at p
          simp only at e0 e1
          subst e0
          exact ⟨q, n, next, s3, v, x, begins_of (by decide +kernel) e, e1, e2, by simpa using p⟩
      · cases p
    · cases p

/-- A word of a bundle at entry pending that is no ENTER, one that does not decode, and fetches of a packet at hand, of one that memory still holds as
it was when the strand was placed, and of one written since. -/
theorem met_StepRunsBundle_fetch : let s := stand 5 3
    let told (t : Strand) : Strand := { t with pkt := none, fetched := s.mem.cells }
    (∃ e ∈ [((⟨0, 0, 0, 1, 6⟩ : Sys2Proof.Part), Instr.enter 4)], isEnter e.2 = true)
    ∧ isEnter .nop = false ∧ (decodeBundle ((atIssue (issuing 0)).decCtx (atIssue (issuing 0)).me) (pktWords 0) 0).1.isOk = false
    ∧ ((told s.me).oldPacket s.mem = none ∨ (told s.me).oldPacket s.mem = some (s.mem.gather [⟨0, 262144, 12, 0⟩]))
    ∧ s.mem.badVa [⟨0, 262144, 12, 0⟩] = none ∧ ((failing s).mem.badVa [⟨0, 262144, 12, 0⟩]).isSome = true := by
  and_intros <;> decide +kernel

theorem met_StepKeepsMemory : State.reset.MemOk ∧ IsNext (step State.reset) ∧ (issuing 0x0070C720).MemOk ∧ ∃ t, step (issuing 0x0070C720) = .next t := by
  have h (s : State) (p : (after (fun _ => true) (step s)) = some true) : ∃ t, step s = .next t := by
    cases e : step s with
    | next t => exact ⟨t, rfl⟩
    | fault f => rw [e] at p; cases p
    | refused f => rw [e] at p; cases p
  exact ⟨by unfold State.MemOk; decide +kernel, h _ (by decide +kernel), by unfold State.MemOk; decide +kernel, h _ (by decide +kernel)⟩

end Sys2Proof.Machine
end

section
/-! PROOF. Scalar forms of two sources: each model value is the value of the table (spec R106, R107). -/

namespace Sys2Proof.Machine

/-! ### Words as numbers -/

@[simp] theorem lo64_toNat (x : W64) : lo64 x.toNat = x := by simp [lo64]

theorem lo64_mul_two_pow (x : W64) (k : Nat) : lo64 (x.toNat * 2 ^ k) = x <<< k := by
  apply BitVec.eq_of_toNat_eq
  simp [lo64, Nat.shiftLeft_eq]

theorem lo64_div_two_pow (x : W64) (k : Nat) : lo64 (x.toNat / 2 ^ k) = x >>> k := by
  apply BitVec.eq_of_toNat_eq
  have h : x.toNat / 2 ^ k < 2 ^ 64 := Nat.lt_of_le_of_lt (Nat.div_le_self _ _) x.isLt
  rw [lo64, BitVec.toNat_ofNat, Nat.mod_eq_of_lt h, BitVec.toNat_ushiftRight, Nat.shiftRight_eq_div_pow]

theorem lo64_add (a b : Nat) : lo64 (a + b) = lo64 a + lo64 b := BitVec.ofNat_add a b

theorem int64_sub (x y : W64) : int64 (x.toInt - y.toInt) = x - y := by
  apply BitVec.eq_of_toInt_eq
  simp [int64, BitVec.toInt_sub, BitVec.toInt_ofInt]

/-- The bits that a rotation carries round meet none of those it shifts. -/
theorem shl_or_shr_eq (x : W64) {k : Nat} (hk : k ≤ 64) :
    x <<< k ||| x >>> (64 - k) = lo64 (x.toNat * 2 ^ k + x.toNat / 2 ^ (64 - k)) := by
  have apart : x <<< k &&& x >>> (64 - k) = 0#64 := by
    ext i hi
    by_cases h : i < k
    · simp [h]
    · have past : x.getLsbD (64 - k + i) = false := BitVec.getLsbD_of_ge _ _ (by omega)
      simp [past]
  rw [lo64_add, lo64_mul_two_pow, lo64_div_two_pow, BitVec.add_eq_or_of_and_eq_zero _ _ apart]

/-! ### The signed and the unsigned reading -/

theorem asNum_true (x : W64) : asNum true x = x.toNat := rfl
theorem asNum_false (x : W64) : asNum false x = x.toInt := rfl

theorem shAmt_eq (y : W64) : shAmt y = y.toNat % 64 := rfl

theorem shAmt_lt (y : W64) : shAmt y < 64 := Nat.mod_lt _ (by decide)

theorem ltV_eq_before64 (u : Bool) (x y : W64) : ltV u x y = before64 u x y := by
  cases u
  · rfl
  · simp [ltV, before64, asNum_true]

/-! ### Products and quotients -/

theorem mulhV_eq (u : Bool) (x y : W64) :
    mulhV u x y = if u then lo64 (x.toNat * y.toNat / 2 ^ 64) else int64 (x.toInt * y.toInt / 2 ^ 64) := by
  cases u
  · rfl
  · have h : (x.toNat : Int) * y.toNat / ((2 ^ 64 : Nat) : Int) = ((x.toNat * y.toNat / 2 ^ 64 : Nat) : Int) := by
      rw [← Int.natCast_mul, ← Int.natCast_ediv]
    rw [mulhV, asNum_true, asNum_true, h, BitVec.ofInt_natCast]; rfl

/-- The one signed quotient that overflows wraps to itself (spec R107). -/
theorem divV_eq (u : Bool) (x y : W64) :
    divV u x y = if y = 0 then BitVec.allOnes 64
      else if u then lo64 (x.toNat / y.toNat)
      else if x.toInt = -2 ^ 63 ∧ y.toInt = -1 then int64 (-2 ^ 63) else int64 (x.toInt.tdiv y.toInt) := by
  unfold divV
  split
  · rfl
  cases u
  · rw [if_neg Bool.false_ne_true]
    split
    · next h => rw [asNum_false, asNum_false, h.1, h.2]; rfl
    · rfl
  · rw [if_pos rfl, asNum_true, asNum_true, ← Int.ofNat_tdiv, BitVec.ofInt_natCast]; rfl

theorem remV_eq (u : Bool) (x y : W64) :
    remV u x y = if y = 0 then x
      else if u then lo64 (x.toNat % y.toNat)
      else if x.toInt = -2 ^ 63 ∧ y.toInt = -1 then 0 else int64 (x.toInt - y.toInt * x.toInt.tdiv y.toInt) := by
  unfold remV
  split
  · rfl
  cases u
  · rw [if_neg Bool.false_ne_true]
    split
    · next h => rw [asNum_false, asNum_false, h.1, h.2]; rfl
    · rw [asNum_false, asNum_false, Int.tmod_def]; rfl
  · rw [if_pos rfl, asNum_true, asNum_true, ← Int.ofNat_tmod, BitVec.ofInt_natCast]; rfl

/-! ### The carry-less product -/

/-- The loop of R107 over the low `n` bits of `b`, from a partial product. -/
def clLoop (n a b p : Nat) : Nat := (List.range n).foldl (fun p i => if b.testBit i then p ^^^ (a <<< i) else p) p

theorem clProduct_eq_clLoop (x y : W64) : clProduct x y = clLoop 64 x.toNat y.toNat 0 := rfl

theorem clLoop_succ (n a b p : Nat) :
    clLoop (n + 1) a b p = clLoop n (2 * a) (b / 2) (if b % 2 = 1 then p ^^^ a else p) := by
  simp only [clLoop, List.range_succ_eq_map, List.foldl_cons, List.foldl_map, Nat.testBit_zero, Nat.testBit_succ, Nat.shiftLeft_zero,
    Nat.shiftLeft_succ_inside, decide_eq_true_eq]

theorem two_mul_xor (a b : Nat) : 2 * (a ^^^ b) = (2 * a) ^^^ (2 * b) := by
  simpa [Nat.shiftLeft_eq, Nat.mul_comm] using Nat.shiftLeft_xor_distrib (a := a) (b := b) (i := 1)

theorem clmulNat_two_mul (n a b : Nat) : clmulNat n (2 * a) b = 2 * clmulNat n a b := by
  induction n generalizing b with
  | zero => rfl
  | succ n ih => rw [clmulNat, clmulNat, ih, two_mul_xor]; split <;> rfl

theorem clLoop_eq (n a b p : Nat) : clLoop n a b p = p ^^^ clmulNat n a b := by
  induction n generalizing a b p with
  | zero => simp [clLoop, clmulNat]
  | succ n ih =>
    rw [clLoop_succ, ih, clmulNat_two_mul, clmulNat, ← Nat.xor_assoc]
    split <;> simp

theorem clmulV_eq_clProduct (x y : W64) : clmulV x y = clProduct x y := by
  rw [clProduct_eq_clLoop, clLoop_eq, Nat.zero_xor]; rfl

/-! ### The forms -/

/-- A word that is a two-source S form with the result `v` for its sources. -/
theorem exec_formS {i : Instr} {f : SForm} {s s1 : State} {x y v : W64} {l : Loc} (hr : Op.readAB f.a f.b s = .ok ((x, y), s1))
    (hd : Dst8 s f.d 16 l) (g : W64 → W64 → W64) (hx : exec i s = runOp (Op.formS f g) s) (hv : g x y = v) :
    ∃ t, exec i s = .next t ∧ ScalarResult s t l v := by
  rw [hx, ← hv]
  exact Op.formS_next g hr hd

/-- Settles O1: each form is `Op.formS` of a function that agrees with the table. -/
theorem scalarTwoSource : Obligations.ScalarTwoSource := by
  intro f s s1 x y l hr hd
  have hrot := Nat.le_of_lt (shAmt_lt y)
  simp only [scalarTwo, List.forall_mem_cons, ← shAmt_eq]
  refine ⟨?add, ?sub, ?mul, ?mulh, ?div, ?rem, ?min, ?max, ?and, ?or, ?xor, ?andn, ?orn, ?shl, ?shr, ?sar, ?rol, ?ror, ?clmul, ?clmulh,
    ?cmpEq, ?cmpNe, ?cmpLt, ?cmpGe, List.forall_mem_nil _⟩
  case add => exact exec_formS hr hd _ rfl (by simp [lo64_add])
  case sub => exact exec_formS hr hd _ rfl (int64_sub x y).symm
  case mul => exact exec_formS hr hd _ rfl (by simp [lo64, BitVec.ofNat_mul])
  case mulh => exact exec_formS hr hd _ rfl (mulhV_eq f.u x y)
  case div => exact exec_formS hr hd _ rfl (divV_eq f.u x y)
  case rem => exact exec_formS hr hd _ rfl (remV_eq f.u x y)
  case min => exact exec_formS hr hd _ rfl (by rw [ltV_eq_before64])
  case max => exact exec_formS hr hd _ rfl (by rw [ltV_eq_before64])
  case and | or | xor | andn | orn => exact exec_formS hr hd _ rfl rfl
  case shl => exact exec_formS hr hd _ rfl (lo64_mul_two_pow x _).symm
  case shr => exact exec_formS hr hd _ rfl (lo64_div_two_pow x _).symm
  case sar => exact exec_formS hr hd _ rfl (by rw [BitVec.sshiftRight_eq, Int.shiftRight_eq_div_pow]; rfl)
  case rol => exact exec_formS hr hd _ rfl (by rw [BitVec.rotateLeft_def, Nat.mod_eq_of_lt (shAmt_lt y), shl_or_shr_eq x hrot])
  case ror =>
    have h := shl_or_shr_eq x (Nat.sub_le 64 (shAmt y))
    rw [Nat.sub_sub_self hrot] at h
    exact exec_formS hr hd _ rfl (by
      rw [BitVec.rotateRight_def, Nat.mod_eq_of_lt (shAmt_lt y), BitVec.or_comm, h, Nat.add_comm])
  case clmul => exact exec_formS hr hd _ rfl (by rw [clmulV_eq_clProduct]; rfl)
  case clmulh => exact exec_formS hr hd _ rfl (by rw [clmulV_eq_clProduct, Nat.shiftRight_eq_div_pow]; rfl)
  case cmpEq | cmpNe => exact exec_formS hr hd _ rfl rfl
  case cmpLt | cmpGe => exact exec_formS hr hd _ rfl (by rw [ltV_eq_before64]; rfl)

end Sys2Proof.Machine
end

section
/-! PROOF. Branches, `LOOP` and `NOP`: where flow goes on and what stays (spec R110, R113, R116, R122). -/

namespace Sys2Proof.Machine

/-! ### A taken branch -/

/-- A strand after its bundle branches to packet `p`: a nest whose body the branch leaves has ended (spec R116). -/
def Strand.leaving (t : Strand) (p : W32) : Strand :=
  if t.loop.act && !(t.loop.holds p) then { t with loop := t.loop.ended } else t

/-- A state after its bundle branches to packet `p` (spec R110). -/
def State.branched (s : State) (p : W32) : State :=
  { s.setMe (s.me.leaving p) with issue := { s.issue with tgt := some p } }

theorem Op.branch_run (p : W32) (s : State) : Op.branch p s = .ok ((), s.branched p) := rfl

theorem Op.rel_run {n : Nat} (off : BitVec n) (s : State) : Op.rel off s = .ok (s.issue.pos.bpc + off.signExtend 32, s) := rfl

theorem Strand.leaving_eq_setLoop (t : Strand) (p : W32) : t.leaving p = { t with loop := (t.leaving p).loop } := by
  unfold Strand.leaving
  split <;> rfl

theorem Strand.leaving_alters (t : Strand) (p : W32) : Alters [.loop] t (t.leaving p) := by
  intro f hf
  rw [t.leaving_eq_setLoop p]
  cases f
  case loop => exact absurd (List.mem_singleton_self _) hf
  all_goals rfl

theorem LoopSt.holds_iff (l : LoopSt) (p : W32) : l.holds p = true ↔ InBody l p := decide_eq_true_iff

theorem Strand.leaving_loop (t : Strand) (p : W32) : LoopAfter t.loop (t.leaving p).loop p := by
  unfold Strand.leaving LoopAfter
  rw [← LoopSt.holds_iff]
  by_cases h : t.loop.act = true ∧ ¬ t.loop.holds p = true
  · rw [if_pos (by simpa using h)]
    exact ⟨fun _ => ⟨rfl, rfl, rfl⟩, fun g => absurd h g⟩
  · rw [if_neg (by simpa using h)]
    exact ⟨fun g => absurd g h, fun _ => rfl⟩

@[simp] theorem State.branched_me (s : State) (p : W32) : (s.branched p).me = s.me.leaving p := State.me_setMe s _

@[simp] theorem State.branched_issue (s : State) (p : W32) : (s.branched p).issue = { s.issue with tgt := some p } := rfl

theorem cons_three_subset {α : Type} {a b c : α} {l m : List α} (h : l ⊆ m) : a :: b :: c :: l ⊆ a :: b :: c :: m :=
  List.cons_subset_cons _ (List.cons_subset_cons _ (List.cons_subset_cons _ h))

/-- A change of the issue record on top of an effect. -/
theorem OnSelf.setIssue {l : List StatePart} {s t : State} (h : OnSelf l s t) (x : Issue) :
    OnSelf (.issue :: l) s { t with issue := x } := by
  obtain ⟨parts, others, cycles, free⟩ := h
  refine ⟨fun p hp => ?_, others, cycles, free⟩
  have same : p.Same s t := parts p fun hl => hp (cons_three_subset (List.subset_cons_self _ _) hl)
  cases p
  case issue => exact absurd (by simp) hp
  all_goals exact same

theorem OnSelf.refl (s : State) : OnSelf [] s s := ⟨Changes.refl _ s, fun _ _ => rfl, fun _ => rfl, Nat.le_refl _⟩

/-- A taken branch on top of an effect. -/
theorem OnSelf.branched {s t : State} (h : OnSelf [] s t) (hc : t.cur = s.cur) (p : W32) : OnSelf [.issue] s (t.branched p) :=
  (h.setMe hc _).setIssue _

theorem State.branched_jump (s : State) (p : W32) : Jump s (s.branched p) p := by
  refine ⟨(OnSelf.refl s).branched rfl p, ?_, State.branched_issue s p, ?_⟩
  · rw [State.branched_me]; exact s.me.leaving_alters p
  · rw [State.branched_me]; exact s.me.leaving_loop p

theorem Jump.of_near {s t u : State} {p : W32} (h : Near s t) (g : Jump t u p) : Jump s u p := by
  obtain ⟨self, alters, issue, loop⟩ := g
  rw [h.me] at alters loop
  rw [h.issue] at issue
  exact ⟨self.of_near h, alters, issue, loop⟩

theorem Near.allQuiet {s t : State} (h : Near s t) : AllQuiet s t := ⟨h.changes, h.2.1, h.2.2⟩

/-! ### Conditional branches -/

theorem brcTaken_iff (cc : BitVec 2) (a : W64) : brcTaken cc a = true ↔ BrcHolds cc a := by
  have codes : cc = 0 ∨ cc = 1 ∨ cc = 2 ∨ cc = 3 := by revert cc; decide
  unfold brcTaken BrcHolds
  rcases codes with rfl | rfl | rfl | rfl <;> simp

theorem brvTaken_iff (cc : BitVec 2) (a : Vec) : brvTaken cc (bfld a 0 256) = true ↔ BrvHolds cc a := by
  have low : bfld a 0 256 = a.toNat % 2 ^ 256 := rfl
  have codes : cc = 0 ∨ cc = 1 ∨ cc = 2 ∨ cc = 3 := by revert cc; decide
  unfold brvTaken BrvHolds
  rw [low]
  generalize a.toNat % 2 ^ 256 = m
  generalize 2 ^ 256 - 1 = ones
  rcases codes with rfl | rfl | rfl | rfl <;> simp

theorem Op.branchIf_run (c : Prop) [Decidable c] (p : W32) (s : State) :
    (if c then Op.branch p else pure ()) s = .ok ((), if c then s.branched p else s) := by
  split
  · exact Op.branch_run p s
  · rfl

/-- A word that reads its source and branches where a test of it holds. -/
theorem branchIf_next {α : Type} {read : Op α} {s s1 : State} {a : α} {n : Nat} (off : BitVec n) (taken : α → Bool)
    (hr : read s = .ok (a, s1)) (hn : Near s s1) :
    ∃ t, runOp (do
        let x ← read
        let p ← Op.rel off
        if taken x then Op.branch p else pure ()) s = .next t
      ∧ (taken a = true → Jump s t (s.issue.pos.bpc + off.signExtend 32)) ∧ (¬ taken a = true → AllQuiet s t) := by
  refine ⟨_, runOp_ok ((Op.bind_run hr).trans ((Op.bind_run (Op.rel_run off s1)).trans (Op.branchIf_run _ _ s1))), ?_⟩
  rw [hn.issue]
  by_cases h : taken a = true
  · rw [if_pos h]
    exact ⟨fun _ => (State.branched_jump s1 _).of_near hn, fun g => absurd h g⟩
  · rw [if_neg h]
    exact ⟨fun g => absurd g h, fun _ => hn.allQuiet⟩

theorem exec_br (off : BitVec 24) (s : State) : ∃ t, exec (.br off) s = .next t ∧ Jump s t (s.issue.pos.bpc + off.signExtend 32) :=
  ⟨_, rfl, State.branched_jump s _⟩

theorem exec_brc (f : CForm) (s s1 : State) (a : W64) (hr : Op.readS f.a 16 s = .ok (a, s1)) :
    ∃ t, exec (.brc f) s = .next t
      ∧ (BrcHolds f.cc a → Jump s t (s.issue.pos.bpc + f.off.signExtend 32)) ∧ (¬BrcHolds f.cc a → AllQuiet s t) := by
  simp only [← brcTaken_iff]
  exact branchIf_next f.off (brcTaken f.cc) hr (Op.readS_near hr)

theorem exec_brv (f : CForm) (s s1 : State) (a : Vec) (hr : Op.readV f.a 16 laneBytes s = .ok (a, s1)) :
    ∃ t, exec (.brv f) s = .next t
      ∧ (BrvHolds f.cc a → Jump s t (s.issue.pos.bpc + f.off.signExtend 32)) ∧ (¬BrvHolds f.cc a → AllQuiet s t) := by
  simp only [← brvTaken_iff]
  exact branchIf_next f.off (fun v => brvTaken f.cc (bfld v 0 256)) hr (Op.readV_near hr)

/-! ### `LOOP` -/

/-- A branch leaves what a delivery put in register space. -/
theorem Delivers.branched {n : Nat} {s t : State} {l : Loc} {v : Nat} (h : Delivers [] [] n s t l v) (hc : t.cur = s.cur) (p : W32) :
    Delivers [.issue] [.loop] n s (t.branched p) l v := by
  obtain ⟨self, alters, stored, queues, last, rot⟩ := h
  refine ⟨self.branched hc p, ?_, ?_⟩
  · rw [State.branched_me]
    exact alters.trans (t.me.leaving_alters p)
  · rw [State.branched_me, t.me.leaving_eq_setLoop p]
    refine ⟨?_, queues, last, rot⟩
    cases l <;> exact stored

theorem Delivers.mono {ps qs : List StatePart} {fs gs : List StrandPart} {n : Nat} {s t : State} {l : Loc} {v : Nat}
    (h : Delivers ps fs n s t l v) (hp : ps ⊆ qs) (hf : fs ⊆ gs) : Delivers qs gs n s t l v := by
  obtain ⟨⟨parts, self⟩, alters, rest⟩ := h
  exact ⟨⟨parts.mono (cons_three_subset hp), self⟩, alters.mono (cons_three_subset (List.cons_subset_cons _ hf)), rest⟩

/-- The result of an S word leaves the issue record and the nest. -/
theorem ScalarResult.kept {s t : State} {l : Loc} {v : W64} (h : ScalarResult s t l v) :
    t.cur = s.cur ∧ t.issue = s.issue ∧ t.me.loop = s.me.loop := by
  obtain ⟨⟨⟨parts, -⟩, alters, -⟩, -⟩ := h
  exact ⟨parts .cur (by decide), parts .issue (by decide), alters .loop (by decide)⟩

theorem exec_loop (f : CForm) (s s1 : State) (a : W64) (l : Loc) (hr : Op.readS f.a 16 s = .ok (a, s1))
    (hd : Dst8 s f.a 16 l) :
    ∃ t, exec (.loop f) s = .next t ∧ Delivers [.issue] [.loop] 0 s t l (a - 1).toNat ∧ t.me.files.ls = a - 1
      ∧ (a ≠ 1 → t.issue = { s.issue with tgt := some (s.issue.pos.bpc + f.off.signExtend 32) }
          ∧ LoopAfter s.me.loop t.me.loop (s.issue.pos.bpc + f.off.signExtend 32))
      ∧ (a = 1 → t.issue = s.issue ∧ t.me.loop = s.me.loop) := by
  have near := Op.readS_near hr
  obtain ⟨u, hw, result⟩ := Op.writeS_ok (a - 1) (hd.near near)
  have result : ScalarResult s u l (a - 1) := ⟨result.1.of_near near, result.2⟩
  obtain ⟨cur, issue, loop⟩ := result.kept
  obtain ⟨delivers, ls⟩ := result
  have hp := Op.rel_run f.off u
  rw [issue] at hp
  refine ⟨_, runOp_ok ((Op.bind_run hr).trans ((Op.bind_run hw).trans ((Op.bind_run hp).trans (Op.branchIf_run _ _ u)))), ?_⟩
  by_cases h : a = 1
  · rw [if_neg (by simp [h])]
    exact ⟨delivers.mono (List.nil_subset _) (List.nil_subset _), ls, fun g => absurd h g, fun _ => ⟨issue, loop⟩⟩
  · rw [if_pos (by simpa [BitVec.sub_eq_iff_eq_add] using h)]
    refine ⟨delivers.branched cur _, ?_, fun _ => ⟨?_, ?_⟩, fun g => absurd g h⟩
    · rw [State.branched_me, Strand.leaving_eq_setLoop]; exact ls
    · rw [State.branched_issue, issue]
    · rw [State.branched_me, ← loop]; exact u.me.leaving_loop _

theorem fldIf_eq_nil {b : Bool} {lo w : Nat} : fldIf b lo w = [] ↔ b = false := by
  cases b <;> simp [fldIf]

/-- A well-formed `LOOP` has no condition code (spec R84). -/
theorem loop_cc_of_wf {f : CForm} (h : (Instr.loop f).wf = true) : f.cc = 0 := by
  unfold Instr.wf at h
  simp only [Bool.and_eq_true, List.isEmpty_iff, Shape.badFields, List.append_eq_nil_iff] at h
  obtain ⟨⟨⟨bad, -⟩, -⟩, -⟩ := h
  simpa using fldIf_eq_nil.1 bad

theorem encode_loop {f : CForm} (h : f.cc = 0) :
    encode (.loop f) = .short (0#1 ++ 6#3 ++ 7#4 ++ 0#2 ++ f.a ++ f.pb ++ f.off) := by
  obtain ⟨cc, a, pb, off⟩ := f
  cases h
  rfl

/-- Settles O7: a word's source and its test decide between a jump and no effect, and `LOOP` delivers its count before it jumps. -/
theorem branches : Obligations.Branches :=
  ⟨exec_br, exec_brc, exec_brv, exec_loop, fun _ h => ⟨loop_cc_of_wf h, encode_loop (loop_cc_of_wf h)⟩⟩

/-! ### `NOP` -/

/-- Settles O6: `NOP` is the pure operation, which answers the state it is given. -/
theorem nopNoEffect : Obligations.NopNoEffect := ⟨rfl, rfl, rfl, fun _ => rfl⟩

end Sys2Proof.Machine
end
